-- ==== Sys2Proof/Word.lean ====
section
/-! DEFINITION. The two word types of the FSA: the octet of the POOL, SCR and OUT spaces and the 64-bit
host register (spec/00_scope.md R10 P1 and R11; spec/10_state.md R21). -/

namespace Sys2Proof

/-- An octet: an unsigned 8-bit value (R11). -/
abbrev Octet := BitVec 8

/-- A host register or a command word: 64 bits (R10 P1, R21, R90). -/
abbrev Word := BitVec 64

end Sys2Proof
end

