-- ==== Sys2Proof/Machine/Constants.lean ====
section
/-! DEFINITION. The parameters of R10 that the source fixes (P7 to P13), and the other constants of the wire formats
(spec/30_encoding.md R96 to R100). -/

namespace Sys2Proof.Machine

/-- P7: the reflected CRC polynomial. -/
def crcPoly : BitVec 32 := 0xEDB88320

/-- P7: the initial value of the CRC register. -/
def crcInit : BitVec 32 := 0xFFFFFFFF

/-- P7: the final XOR of the CRC. -/
def crcFinalXor : BitVec 32 := 0xFFFFFFFF

/-- P8: the value of every IFG and padding octet (R100). -/
def ifgOctet : Octet := 0x07

/-- P9: preamble and SFD, `FB`-first (R98). -/
def preambleSfd : List Octet := [0xFB, 0x55, 0x55, 0x55, 0x55, 0x55, 0x55, 0xD5]

/-- P11: symbols per slot. -/
def symbolsPerSlot : Nat := 14

/-- P11: subframes per radio frame. -/
def subframesPerFrame : Nat := 10

/-- P11: the modulus of `frame_id`. -/
def frameIdModulus : Nat := 256

/-- P11: the modulus of `ecpri_seq_id`; 255, not 256 (R185, R245). -/
def ecpriSeqModulus : Nat := 255

/-- P12: the maximum PRB count, which a 0 stands for (R35, R132, R160). -/
def maxPrbs : Nat := 273

/-- P13: IQ octets per PRB and packet, one I and one Q for each of 14 REs (R166). -/
def iqOctetsPerPrb : Nat := 2 * 14

/-- The EtherType that `ETHER_FIELD_SEL = ECPRI_ETHERTYPE` selects (R188, spec/93 G2). -/
def ecpriEthertypeValue : Nat := 0xAEFE

/-- A 64-bit register holds the numbers below this one (R169). -/
def wordLimit : Nat := 2 ^ 64

end Sys2Proof.Machine
end

