-- ==== Sys2Proof/Config.lean ====
section
/-! DEFINITION. The implementation parameters that the spec leaves OPEN (spec/00_scope.md R10 P2 to P6;
spec/20_memory.md R73). P2 to P5 are plain data that the machine carries in `State.params`, so that a claim
over every state is a claim over every value of them; P6 and the bus bases have no body at all. The fixed
parameters P7 to P13 stand in Machine/Constants.lean. -/

namespace Sys2Proof

/-- P5 `ETHER_FIELD_SEL` (R188, D13): what the assembler puts in the EtherType/Length field. -/
inductive EtherFieldSel where
  /-- The eCPRI packet length (the default). -/
  | length
  /-- The constant 0xAEFE. -/
  | ecpriEthertype
  deriving DecidableEq, Repr

/-- The open parameters P2 to P5 of R10, as the machine's constants: no step changes them. -/
structure Params where
  /-- P2 `POOL_CAP`, octets of the POOL space; at least 2. -/
  poolCap : Nat
  /-- P3 `SCR_CAP`, octets of the SCR space. -/
  scrCap : Nat
  /-- P4 `OUT_CAP`, octets of the OUT space. -/
  outCap : Nat
  /-- P5 `ETHER_FIELD_SEL`. -/
  etherSel : EtherFieldSel
  deriving DecidableEq, Repr

/-- The one constraint R10 puts on the open parameters: `POOL_CAP` is at least 2. -/
def Params.wf (p : Params) : Bool := decide (2 ≤ p.poolCap)

/-- The parameter values of the machine `State.reset`: R10's suggested `SCR_CAP` and `OUT_CAP`, its default
`ETHER_FIELD_SEL`, and the `POOL_CAP` of spec/95_test_vectors.md section 1. DESIGN CHOICE (log entry 2). -/
def Params.suggested : Params :=
  { poolCap := 1048576, scrCap := 65536, outCap := 7968750000, etherSel := .length }

/-- P6 `rng_octet(seed, k)`: the random payload generator, an uninterpreted total function from a 64-bit seed
and a 64-bit index to an octet (R10, R182, D14). No value of it can be proved (log entry 4). -/
opaque Config.rngOctet : Word → Word → Octet

/-- The four address spaces of R60. -/
inductive Space where
  | reg
  | pool
  | scr
  | out
  deriving DecidableEq, Repr

/-- `REG_BASE`, `POOL_BASE`, `SCR_BASE` and `OUT_BASE` (R73): where the platform places each space in its own
bus address map. Left open; the FSA itself sees only indices from 0 in each space, so no rule reads them
(log entry 5). -/
opaque Config.busBase : Space → Nat

end Sys2Proof
end

