-- ==== Sys2Proof/Syntax.lean ====
section
/-! DEFINITION. The commands of the FSA (one constructor per row of spec/opcode_table.json), the named registers of
R22, the events the host can present (R20, R60, R61, R72, R230) and the host script lines of R101 and R102. -/

namespace Sys2Proof

/-- The nine commands (spec/30_encoding.md R91). A command word has no operand field (R95): the operands are registers. -/
inductive Instr where
  | clear
  | plan
  | step
  | run
  | finish
  | crc32
  | oranBuild
  | ecpriBuild
  | ethBuild
  deriving DecidableEq, Repr

/-- The unit commands of R19: they run one functional unit on the SCR space. The others are the sequencer commands. -/
def Instr.isUnit : Instr → Bool
  | .clear => false
  | .plan => false
  | .step => false
  | .run => false
  | .finish => false
  | .crc32 => true
  | .oranBuild => true
  | .ecpriBuild => true
  | .ethBuild => true

/-- The register names of R22, in the order of its table. -/
inductive Reg where
  | status
  | cmd
  | cfgLineRate
  | cfgCaptureMs
  | cfgMinIfg
  | cfgDestMac
  | cfgSrcMac
  | cfgMaxPkt
  | cfgScs
  | cfgMaxNrb
  | cfgNrbPerPkt
  | cfgPayloadType
  | cfgPoolLen
  | cfgRngSeed
  | argSrc
  | argLen
  | argDst
  | argFrame
  | argSubframe
  | argSlot
  | argSymbol
  | argStartPrbu
  | argNumPrbu
  | argSeq
  | argEther
  | resCrc
  | resLen
  | resTrailIfg
  | outLen
  | pktNo
  | planTotalBytes
  | planFramesRadio
  | planSlotsPerSf
  | planPktsPerSymbol
  | planPktsPerSlot
  | planPktsPerSubframe
  | planPktsPerFrame
  | planTotalPackets
  | planIqPerPkt
  | planMaxNrb
  | planNrbPerPkt
  | planPoolLen
  | planFrameLen
  deriving DecidableEq, Repr

/-- The three octet spaces of R60, each accessed one octet at a time (R71). -/
inductive OctetSpace where
  | pool
  | scr
  | out
  deriving DecidableEq, Repr

/-- What the outside world can present to the FSA: one host access (R20, R60, R61) or hardware reset (R230). -/
inductive HostEvent where
  /-- A whole 64-bit write to a register index (R21); index 0x01 issues a command (R28). -/
  | writeReg (index : Fin 64) (value : Word)
  /-- A whole 64-bit read of a register index (R21). -/
  | readReg (index : Fin 64)
  /-- A write of one octet (R60). -/
  | writeOctet (space : OctetSpace) (addr : Nat) (value : Octet)
  /-- A read of one octet (R60). -/
  | readOctet (space : OctetSpace) (addr : Nat)
  /-- An access narrower than 64 bits, or at an octet offset inside a register: a bus error (R61). -/
  | partialReg (index : Fin 64) (offset : Nat) (octets : Nat)
  /-- The hardware reset input event (R230). -/
  | hardwareReset
  deriving DecidableEq, Repr

/-- What a host read returned. -/
inductive HostAnswer where
  | reg (value : Word)
  | octet (value : Octet)
  deriving DecidableEq, Repr

/-- One line of a host script (R101), the pseudo-instructions of R102 among them. -/
inductive ScriptLine where
  /-- `WR <reg>, <value>` -/
  | wr (reg : Reg) (value : Word)
  /-- `RD <reg>` -/
  | rd (reg : Reg)
  /-- `WB <space>[<addr>], <o0>, <o1>, …` -/
  | wb (space : OctetSpace) (addr : Nat) (octets : List Octet)
  /-- `RB <space>[<addr>]` -/
  | rb (space : OctetSpace) (addr : Nat)
  /-- `<MNEMONIC>` -/
  | command (i : Instr)
  /-- `LOADPOOL o0, …, o(n−1)` -/
  | loadPool (octets : List Octet)
  /-- `UNIT <MNEMONIC> src=s, len=l, dst=d`; a field left out is not written. -/
  | unit (i : Instr) (src len dst : Option Word)
  deriving DecidableEq, Repr

end Sys2Proof
end

