-- ==== Sys2Proof/WellFormed.lean ====
section
/-! DEFINITION. What is checked of a term before it means anything: a command word (R90 to R92) and a host script line
(R101, R102). An `Instr` has no operand, so every one of them is well formed. -/

namespace Sys2Proof

/-- Every `Instr` is well formed: the command word has no operand field (R95). -/
def Instr.wf (i : Instr) : Bool :=
  match i with
  | .clear | .plan | .step | .run | .finish => true
  | .crc32 | .oranBuild | .ecpriBuild | .ethBuild => true

/-- The opcodes of R91, in the order of its table. -/
def legalOpcodes : List Octet := [0x01, 0x02, 0x03, 0x04, 0x05, 0x10, 0x11, 0x12, 0x13]

/-- A legal command word (R92): RSV is 0 and OPC is in the opcode map. -/
def CommandWord.wf (w : Word) : Bool :=
  w.extractLsb' 8 56 == 0#56 && legalOpcodes.contains (w.extractLsb' 0 8)

/-- A host script line is well formed when a `WB` and a `LOADPOOL` list at least one octet, and a `UNIT` names one of the four unit commands of
R19. DESIGN CHOICE (log entry 19): R101 and R102 do not say whether a list may be empty or which mnemonics `UNIT` takes. -/
def ScriptLine.wf : ScriptLine → Bool
  | .wr _ _ => true
  | .rd _ => true
  | .wb _ _ os => !os.isEmpty
  | .rb _ _ => true
  | .command _ => true
  | .loadPool os => !os.isEmpty
  | .unit i _ _ _ => i.isUnit

end Sys2Proof
end

