-- ==== Sys2Proof/Decode.lean ====
section
/-! DEFINITION. The decoding procedure of R93, total on every 64-bit command word, and the encoder of R91. The FSA fetches no
command from memory and a register has no byte order (R61, R70, R90), so a command word is one 64-bit number. -/

namespace Sys2Proof

/-- Why a command word is ILLEGAL (R92). -/
inductive IllegalWord where
  /-- RSV, bits [63:8], is not 0. -/
  | reservedBits
  /-- OPC, bits [7:0], is not in the opcode map of R91; 0x00 among them. -/
  | unknownOpcode
  deriving DecidableEq, Repr

/-- The OPC field, bits [7:0] (R90). -/
def opcOf (w : Word) : Octet := w.extractLsb' 0 8

/-- The RSV field, bits [63:8] (R90). -/
def rsvOf (w : Word) : BitVec 56 := w.extractLsb' 8 56

/-- The opcode map of R91, read from the opcode. -/
def decodeOpc (opc : Octet) : Except IllegalWord Instr :=
  match opc.toNat with
  | 0x01 => .ok .clear
  | 0x02 => .ok .plan
  | 0x03 => .ok .step
  | 0x04 => .ok .run
  | 0x05 => .ok .finish
  | 0x10 => .ok .crc32
  | 0x11 => .ok .oranBuild
  | 0x12 => .ok .ecpriBuild
  | 0x13 => .ok .ethBuild
  | _ => .error .unknownOpcode

/-- `decode(w)` of R93. -/
def decode (w : Word) : Except IllegalWord Instr :=
  if rsvOf w ≠ 0 then .error .reservedBits else decodeOpc (opcOf w)

/-- The OPC value of each command (R91). -/
def opcodeOf : Instr → Octet
  | .clear => 0x01
  | .plan => 0x02
  | .step => 0x03
  | .run => 0x04
  | .finish => 0x05
  | .crc32 => 0x10
  | .oranBuild => 0x11
  | .ecpriBuild => 0x12
  | .ethBuild => 0x13

/-- The command word of a command: OPC with RSV = 0 (R90, R91). -/
def encode (i : Instr) : Word := (0#56) ++ opcodeOf i

/-- The command the decoder reads from a table word. Every row is one 64-bit command word; bits above `nbits` are 0, and a
word of more than 64 bits is none of the FSA's. -/
def decodeTableWord (nbits w : Nat) : Option Instr :=
  if nbits ≤ 64 then (decode (BitVec.ofNat 64 (w % 2 ^ nbits))).toOption else none

end Sys2Proof
end

