-- ==== Sys2Proof/Machine/State.lean ====
section
/-! DEFINITION. The state of the FSA as plain data (spec/10_state.md R20 to R50; spec/20_memory.md R60 to R68), its faults and
refusals, and the state after reset (R50, R230). -/

namespace Sys2Proof.Machine

/-- The phase of the sequencer (R24). The codes 5, 6 and 7 never occur. -/
inductive Phase where
  | idle
  | planned
  | running
  | done
  | error
  deriving DecidableEq, Repr

/-- The error codes of R200, the constructor `noError` being code 0. -/
inductive ErrCode where
  | noError
  | configReadFailure
  | configParseError
  | iqSourceFailure
  | planInfeasible
  | oranFieldOverflow
  | ecpriPayloadTooLarge
  | ethernetFrameTooLarge
  | invalidPayloadType
  | crcInputEmpty
  | illegalCommand
  | resourceExceeded
  deriving DecidableEq, Repr

/-- The CFG_ registers, indices 0x02 to 0x0D (R22, R29 to R38). -/
structure CfgRegs where
  lineRate : Word
  captureMs : Word
  minIfg : Word
  destMac : BitVec 48
  srcMac : BitVec 48
  maxPkt : Word
  scs : Word
  maxNrb : Word
  nrbPerPkt : Word
  payloadType : Word
  poolLen : Word
  rngSeed : Word
  deriving DecidableEq, Repr

/-- The ARG_ registers, indices 0x10 to 0x1A (R22, R40). -/
structure ArgRegs where
  src : Word
  len : Word
  dst : Word
  frame : Word
  subframe : Word
  slot : Word
  symbol : Word
  startPrbu : Word
  numPrbu : Word
  seq : Word
  ether : Word
  deriving DecidableEq, Repr

/-- The PLAN_ registers, indices 0x30 to 0x3C (R22, R43). -/
structure PlanRegs where
  totalBytes : Word
  framesRadio : Word
  slotsPerSf : Word
  pktsPerSymbol : Word
  pktsPerSlot : Word
  pktsPerSubframe : Word
  pktsPerFrame : Word
  totalPackets : Word
  iqPerPkt : Word
  maxNrb : Word
  nrbPerPkt : Word
  poolLen : Word
  frameLen : Word
  deriving DecidableEq, Repr

/-- The derived plan as the planner computes it, on unbounded naturals (R11, R160 to R168, R172), before R171 stores it. -/
structure PlanValues where
  totalBytes : Nat
  framesRadio : Nat
  slotsPerSf : Nat
  pktsPerSymbol : Nat
  pktsPerSlot : Nat
  pktsPerSubframe : Nat
  pktsPerFrame : Nat
  totalPackets : Nat
  iqPerPkt : Nat
  maxNrb : Nat
  nrbPerPkt : Nat
  poolLen : Nat
  frameLen : Nat
  deriving DecidableEq, Repr

/-- The hidden identifier counters, at the model widths of R45. -/
structure IdCounters where
  frameId : BitVec 8
  subframeId : BitVec 4
  slotId : BitVec 64
  symbolId : BitVec 4
  startPrbu : BitVec 16
  ecpriSeqId : BitVec 8
  deriving DecidableEq, Repr

/-- Every CFG_ register 0. -/
def CfgRegs.zero : CfgRegs := ⟨0, 0, 0, 0, 0, 0, 0, 0, 0, 0, 0, 0⟩

/-- Every ARG_ register 0. -/
def ArgRegs.zero : ArgRegs := ⟨0, 0, 0, 0, 0, 0, 0, 0, 0, 0, 0⟩

/-- Every PLAN_ register 0. -/
def PlanRegs.zero : PlanRegs := ⟨0, 0, 0, 0, 0, 0, 0, 0, 0, 0, 0, 0, 0⟩

/-- Every identifier 0 (R181). -/
def IdCounters.zero : IdCounters := ⟨0, 0, 0, 0, 0, 0⟩

/-- An octet space: its written octets, as (address, octet) pairs in strictly rising order of address. An address with no
pair is unwritten and has no value (R64). -/
abbrev Mem := List Host.Cell

/-- The state of the FSA and of the host's side of the interface. -/
structure State where
  /-- The open parameters P2 to P5 (R10): constants of the machine. -/
  params : Params
  /-- The CFG_ registers (R29 to R38). -/
  cfg : CfgRegs
  /-- The ARG_ registers (R40). -/
  arg : ArgRegs
  /-- RES_CRC, bits [31:0] (R41). -/
  resCrc : BitVec 32
  /-- RES_LEN (R41). -/
  resLen : Word
  /-- RES_TRAIL_IFG (R42). -/
  resTrailIfg : Word
  /-- STATUS.PHASE (R24). -/
  phase : Phase
  /-- STATUS.ERR (R25). -/
  err : ErrCode
  /-- STATUS.LERR (R26). -/
  lerr : ErrCode
  /-- STATUS.LOCKED (R27). -/
  locked : Bool
  /-- The PLAN_ registers (R43). -/
  plan : PlanRegs
  /-- `packet_no`, read as PKT_NO (R44). -/
  packetNo : Word
  /-- EMITTED, 128 bits; OUT_LEN reads its low 64 (R46). -/
  emitted : BitVec 128
  /-- The hidden identifier counters (R45). -/
  ids : IdCounters
  /-- The IQ scratch buffer of the packet built last (R48). -/
  iqScratch : List Octet
  /-- The POOL space (R62). -/
  pool : Mem
  /-- The SCR space (R63). -/
  scr : Mem
  /-- The OUT space (R66). -/
  out : Mem
  /-- The model's own: the events the host has still to present, the next one first (R20, R74; log entry 1). -/
  script : List HostEvent
  /-- The model's own: what the host's reads returned, the newest first (log entry 1). -/
  answers : List HostAnswer
  deriving DecidableEq, Repr

/-- Why the machine stops with a fault: the two reads to which the spec gives no value. -/
inductive Fault where
  /-- Raised by a host read of POOL or SCR, by a unit command's read of SCR and by STEP's and RUN's read of POOL, where the octet
  is unwritten: R64 and spec/93 item 10 say that such a read faults in the model. An address outside the space is unwritten for
  ever (log entry 6). SAFE. -/
  | unwrittenOctet
  /-- Raised by a host read of OUT outside the window R67 makes readable: an unspecified octet, a fault in the model (R67,
  spec/93 item 11). SAFE. -/
  | unspecifiedOutOctet
  deriving DecidableEq, Repr

/-- Why the machine takes no step. -/
inductive Refusal where
  /-- Raised by an arm of `exec` whose command has no meaning yet. No arm of this model raises it. SAFE. -/
  | notModelled (mnemonic : String)
  /-- Raised by a register access narrower than 64 bits or at an octet offset: R61 says the model refuses it. SAFE. -/
  | partialRegisterAccess
  deriving DecidableEq, Repr

/-- How the body of a sequencer command ends: it completes, it raises an error after the statements that stand before the
raise (R16), or a read of an unwritten octet faults. -/
inductive Body where
  | done (s : State)
  | raised (c : ErrCode) (s : State)
  | faulted (f : Fault)
  deriving DecidableEq, Repr

/-- The machine right after hardware reset (R50, R230), for the parameter values `Params.suggested`, with nothing placed in the
host's script. -/
def State.reset : State :=
  { params := Params.suggested
    cfg := CfgRegs.zero
    arg := ArgRegs.zero
    resCrc := 0
    resLen := 0
    resTrailIfg := 0
    phase := .idle
    err := .noError
    lerr := .noError
    locked := false
    plan := PlanRegs.zero
    packetNo := 0
    emitted := 0
    ids := IdCounters.zero
    iqScratch := []
    pool := []
    scr := []
    out := []
    script := []
    answers := [] }

end Sys2Proof.Machine
end

