-- ==== Sys2Proof/Machine/Ops.lean ====
section
/-! DEFINITION. The shared operations: arithmetic and byte order (R11, R14, R15), the octet spaces (R64 to R66), the two error
entries (R205, R207) and the return to IDLE (R193, R209). -/

namespace Sys2Proof.Machine

/-! ### Arithmetic and byte order -/

/-- `ceil_div(a, b)` (R11). -/
def ceilDiv (a b : Nat) : Nat := (a + b - 1) / b

/-- `be16(v)` (R14). -/
def be16 (v : BitVec 16) : List Octet := [v.extractLsb' 8 8, v.extractLsb' 0 8]

/-- `be32(v)` (R14). -/
def be32 (v : BitVec 32) : List Octet :=
  [v.extractLsb' 24 8, v.extractLsb' 16 8, v.extractLsb' 8 8, v.extractLsb' 0 8]

/-- `be48(v)` (R14). -/
def be48 (v : BitVec 48) : List Octet :=
  [v.extractLsb' 40 8, v.extractLsb' 32 8, v.extractLsb' 24 8, v.extractLsb' 16 8, v.extractLsb' 8 8, v.extractLsb' 0 8]

/-- The two's-complement octet of a signed sample (R15). -/
def sampleOctet (x : Int) : Octet := BitVec.ofInt 8 x

/-- `sext_8(o)`: the signed sample of an octet (R15). -/
def octetSample (o : Octet) : Int := if o.toNat < 128 then o.toNat else (o.toNat : Int) - 256

/-! ### The octet spaces -/

/-- The octet at an address, none where it is unwritten (R64). -/
def Mem.read (m : Mem) (a : Nat) : Option Octet := List.lookup a m

/-- The pairs that hold a sequence of octets from an address upward. -/
def cellsFrom : Nat → List Octet → Mem
  | _, [] => []
  | a, b :: bs => (a, b) :: cellsFrom (a + 1) bs

/-- `MemRead(space, a, n)` (R64): the octets of [a, a+n), none where one of them is unwritten. -/
def Mem.readRange (m : Mem) (a : Nat) : Nat → Option (List Octet)
  | 0 => some []
  | n + 1 =>
    match Mem.read m a, Mem.readRange m (a + 1) n with
    | some b, some bs => some (b :: bs)
    | _, _ => none

/-- `MemWrite(space, a, n, s)` with n = len(s) (R65): the octets of s stand at [a, a+n), every other address keeps what it
holds. -/
def Mem.writeRange (m : Mem) (a : Nat) (bs : List Octet) : Mem :=
  m.filter (fun c => decide (c.1 < a)) ++ cellsFrom a bs ++ m.filter (fun c => decide (a + bs.length ≤ c.1))

/-- The addresses of a space rise strictly. -/
def Mem.rising : Mem → Bool
  | [] => true
  | [_] => true
  | c :: d :: m => decide (c.1 < d.1) && Mem.rising (d :: m)

/-- The canonical form of a space of `cap` octets: addresses strictly rising, all of them below `cap`. No pair can stand for an
unwritten octet, since an unwritten octet has no value. -/
def Mem.wf (cap : Nat) (m : Mem) : Bool := Mem.rising m && m.all (fun c => decide (c.1 < cap))

/-- The contents of a space (R60). -/
def State.mem (s : State) : OctetSpace → Mem
  | .pool => s.pool
  | .scr => s.scr
  | .out => s.out

/-- The size of a space (R60, P2 to P4). -/
def State.cap (s : State) : OctetSpace → Nat
  | .pool => s.params.poolCap
  | .scr => s.params.scrCap
  | .out => s.params.outCap

/-- One octet of a space, read by its address. An unwritten octet has no value (R64), and at an address outside the space nothing is ever
written (R60, R72; log entry 6). -/
def State.readOctet (s : State) (sp : OctetSpace) (a : Nat) : Except Fault Octet :=
  if a < s.cap sp then
    match Mem.read (s.mem sp) a with
    | some b => .ok b
    | none => .error .unwrittenOctet
  else .error .unwrittenOctet

/-- `Emit(s)` (R66): octets at stream positions below OUT_CAP are stored, and every octet is counted. -/
def State.emit (bs : List Octet) (s : State) : State :=
  { s with
    out := Mem.writeRange s.out s.emitted.toNat (bs.take (s.params.outCap - s.emitted.toNat))
    emitted := BitVec.ofNat 128 (s.emitted.toNat + bs.length) }

/-! ### Errors -/

/-- Sequencer-error entry (R205), the FSA's only trap: ERR gets the code and PHASE becomes ERROR. Nothing is saved and nothing else
changes. -/
def State.sequencerError (c : ErrCode) (s : State) : State := { s with err := c, phase := .error }

/-- Unit-error entry (R207): LERR gets the code and nothing else changes. -/
def State.unitError (c : ErrCode) (s : State) : State := { s with lerr := c }

/-- What a sequencer command's body comes to: an error it raises enters phase ERROR (R205). -/
def Body.outcome : Body → Host.Outcome State Fault Refusal
  | .done s => .next s
  | .raised c s => .next (s.sequencerError c)
  | .faulted f => .fault f

/-- An illegal command word, or a sequencer command that R180 marks Illegal (R194): ignored in phase ERROR, IllegalCommand in every
other. -/
def State.illegalCommand (s : State) : State :=
  if s.phase = .error then s else s.sequencerError .illegalCommand

/-- Leaving ERROR, or any other phase, for IDLE (R193, R209): CLEAR's writes. There is no return from the trap but this one and
hardware reset. -/
def State.cleared (s : State) : State :=
  { s with
    phase := .idle
    err := .noError
    lerr := .noError
    locked := false
    packetNo := 0
    emitted := 0
    ids := IdCounters.zero
    resTrailIfg := 0
    plan := PlanRegs.zero }

end Sys2Proof.Machine
end

