-- ==== Sys2Proof/Machine/Flags.lean ====
section
/-! DEFINITION. The STATUS word (R23 to R27) and the legality of the sequencer commands by phase (R180). The FSA has no condition
codes and no arithmetic flags (R49). -/

namespace Sys2Proof.Machine

/-- The PHASE encoding of R24. -/
def Phase.code : Phase → BitVec 3
  | .idle => 0
  | .planned => 1
  | .running => 2
  | .done => 3
  | .error => 4

/-- The numeric error codes of R200. -/
def ErrCode.code : ErrCode → BitVec 8
  | .noError => 0
  | .configReadFailure => 1
  | .configParseError => 2
  | .iqSourceFailure => 3
  | .planInfeasible => 4
  | .oranFieldOverflow => 5
  | .ecpriPayloadTooLarge => 6
  | .ethernetFrameTooLarge => 7
  | .invalidPayloadType => 8
  | .crcInputEmpty => 9
  | .illegalCommand => 10
  | .resourceExceeded => 11

/-- The bit of a sticky flag. -/
def flagBit (b : Bool) : BitVec 1 := if b then 1 else 0

/-- The STATUS register (R23): LOCKED at [24], LERR at [23:16], ERR at [15:8], PHASE at [2:0], every other bit 0. -/
def State.statusWord (s : State) : Word :=
  (0#39) ++ flagBit s.locked ++ s.lerr.code ++ s.err.code ++ (0#5) ++ s.phase.code

/-- What R180 says of a sequencer command in a phase. -/
inductive Legality where
  | runs
  | illegal
  | ignored
  deriving DecidableEq, Repr

/-- PLAN's row of R180. -/
def planLegality (s : State) : Legality :=
  match s.phase with
  | .idle => .runs
  | .planned | .running | .done => .illegal
  | .error => .ignored

/-- STEP's row of R180. -/
def stepLegality (s : State) : Legality :=
  match s.phase with
  | .planned => .runs
  | .running => if s.packetNo.toNat < s.plan.totalPackets.toNat then .runs else .illegal
  | .idle | .done => .illegal
  | .error => .ignored

/-- RUN's row of R180. -/
def runLegality (s : State) : Legality :=
  match s.phase with
  | .planned | .running => .runs
  | .idle | .done => .illegal
  | .error => .ignored

/-- FINISH's row of R180. -/
def finishLegality (s : State) : Legality :=
  match s.phase with
  | .running => if s.packetNo = s.plan.totalPackets then .runs else .illegal
  | .idle | .planned | .done => .illegal
  | .error => .ignored

/-- A sequencer command under its legality (R180, R194): its body runs, or IllegalCommand is raised, or nothing changes. -/
def sequencerCommand (l : Legality) (body : State → Body) (s : State) : Host.Outcome State Fault Refusal :=
  match l with
  | .runs => (body s).outcome
  | .illegal => .next s.illegalCommand
  | .ignored => .next s

end Sys2Proof.Machine
end

