-- ==== Sys2Proof/Machine/Operands.lean ====
section
/-! DEFINITION. The operands of the unit commands (R94) and the shape the three builder commands share (R133, R142, R155). -/

namespace Sys2Proof.Machine

/-- `src`, as an unbounded natural (R11, R94). -/
def State.srcOperand (s : State) : Nat := s.arg.src.toNat

/-- `len` (R94). -/
def State.lenOperand (s : State) : Nat := s.arg.len.toNat

/-- `dst` (R94). -/
def State.dstOperand (s : State) : Nat := s.arg.dst.toNat

/-- A range [a, a+n) lies in SCR: a + n ≤ SCR_CAP, without wrap (R94, R123). -/
def State.scrHolds (s : State) (a n : Nat) : Bool := decide (a + n ≤ s.params.scrCap)

/-- `seq_id` of ECPRI_BUILD is a u16 (R94, R142). -/
def checkSeqOperand (s : State) : Option ErrCode := if s.arg.seq.toNat > 0xFFFF then some .illegalCommand else none

/-- `ether_size` is 2 octets and `min_ifgs_per_packet` is at most 255, in ETH_BUILD (R94, R155). -/
def checkEthOperands (s : State) : Option ErrCode :=
  if s.arg.ether.toNat > 0xFFFF then some .illegalCommand
  else if s.cfg.minIfg.toNat > 255 then some .illegalCommand
  else none

/-- A successful builder's writes: the octets to SCR from `dst`, their number to RES_LEN, 0 to LERR (R41, R65, R133). -/
def State.writeBuilt (dst : Nat) (pkt : List Octet) (s : State) : State :=
  { s with
    scr := Mem.writeRange s.scr dst pkt
    resLen := BitVec.ofNat 64 pkt.length
    lerr := .noError }

/-- A builder command (R133, R142, R155): the source range, the operand check, the read of the whole input, the builder, the
destination range, each in that order; then the writes, and `record`, what the command records besides. Every error is a unit
error (R207). -/
def runBuilder (check : Option ErrCode) (build : List Octet → Except ErrCode (List Octet)) (record : List Octet → State → State)
    (s : State) : Host.Outcome State Fault Refusal :=
  if s.scrHolds s.srcOperand s.lenOperand then
    match check with
    | some c => .next (s.unitError c)
    | none =>
      match Mem.readRange s.scr s.srcOperand s.lenOperand with
      | none => .fault .unwrittenOctet
      | some input =>
        match build input with
        | .error c => .next (s.unitError c)
        | .ok pkt =>
          if s.scrHolds s.dstOperand pkt.length then .next (record input (s.writeBuilt s.dstOperand pkt))
          else .next (s.unitError .resourceExceeded)
  else .next (s.unitError .resourceExceeded)

end Sys2Proof.Machine
end

