-- ==== Sys2Proof/Machine/Ecpri.lean ====
section
/-! DEFINITION. The eCPRI packet builder and ECPRI_BUILD (spec/42_ecpri.md R140 to R143; layout R97). -/

namespace Sys2Proof.Machine

/-- `ecpri_packet(seq_id, payload)` (R140, R141): version, reserved, concatenation and message type 0, the payload length, RTCid/PCid 0,
`seq_id`, then the payload. -/
def ecpriPacket (seq : Nat) (pl : List Octet) : Except ErrCode (List Octet) :=
  if pl.length > 0xFFFF then .error .ecpriPayloadTooLarge
  else .ok ([0x00, 0x00] ++ be16 (BitVec.ofNat 16 pl.length) ++ [0x00, 0x00] ++ be16 (BitVec.ofNat 16 seq) ++ pl)

/-- ECPRI_BUILD (R142). -/
def execEcpriBuild (s : State) : Host.Outcome State Fault Refusal :=
  runBuilder (checkSeqOperand s) (ecpriPacket s.arg.seq.toNat) (fun _ t => t) s

end Sys2Proof.Machine
end

