-- ==== Sys2Proof/Machine/Oran.lean ====
section
/-! DEFINITION. The O-RAN U-Plane packet builder and ORAN_BUILD (spec/41_oran.md R130 to R134; layout R96). -/

namespace Sys2Proof.Machine

/-- The six header fields, as natural numbers (R130). -/
structure OranFields where
  frameId : Nat
  subframeId : Nat
  slotId : Nat
  symbolId : Nat
  startPrbu : Nat
  numPrbu : Nat
  deriving DecidableEq, Repr

/-- `check_oran_fields` passes (R131): u8, u4, u6, u6, u10, and u8 or exactly 273. -/
def oranFieldsFit (f : OranFields) : Bool :=
  decide (f.frameId ≤ 255) && decide (f.subframeId ≤ 15) && decide (f.slotId ≤ 63) && decide (f.symbolId ≤ 63) &&
    decide (f.startPrbu ≤ 1023) && (decide (f.numPrbu ≤ 255) || decide (f.numPrbu = maxPrbs))

/-- The rewrite of `num_prbu`: 273 is encoded as 0 (R132). -/
def encodeNumPrbu (np : Nat) : Nat := if np = maxPrbs then 0 else np

/-- The eight header octets H0 to H7 (R96, R130). -/
def oranHeader (f : OranFields) : List Octet :=
  [ 0x00,
    BitVec.ofNat 8 f.frameId,
    BitVec.ofNat 8 ((f.subframeId <<< 4) ||| ((f.slotId >>> 2) &&& 0x0F)),
    BitVec.ofNat 8 (((f.slotId &&& 0x03) <<< 6) ||| (f.symbolId &&& 0x3F)),
    0xFF,
    BitVec.ofNat 8 (0xF0 ||| ((f.startPrbu >>> 8) &&& 0x03)),
    BitVec.ofNat 8 (f.startPrbu &&& 0xFF),
    BitVec.ofNat 8 (encodeNumPrbu f.numPrbu) ]

/-- `oran_packet` (R130). -/
def oranPacket (f : OranFields) (iq : List Octet) : Except ErrCode (List Octet) :=
  if oranFieldsFit f then .ok (oranHeader f ++ iq) else .error .oranFieldOverflow

/-- The fields that ORAN_BUILD takes from the ARG_ registers (R94, R133). -/
def State.oranOperands (s : State) : OranFields :=
  { frameId := s.arg.frame.toNat
    subframeId := s.arg.subframe.toNat
    slotId := s.arg.slot.toNat
    symbolId := s.arg.symbol.toNat
    startPrbu := s.arg.startPrbu.toNat
    numPrbu := s.arg.numPrbu.toNat }

/-- ORAN_BUILD (R133). -/
def execOranBuild (s : State) : Host.Outcome State Fault Refusal :=
  runBuilder none (oranPacket s.oranOperands) (fun _ t => t) s

/-- Octet i of a header, 0 past its end. -/
def headerOctet (h : List Octet) (i : Nat) : Nat := (h.getD i 0).toNat

/-- The fields a parser reads back from a header (R134); H7 = 0 reads back as 273. -/
def parseOranHeader (h : List Octet) : OranFields :=
  { frameId := headerOctet h 1
    subframeId := headerOctet h 2 >>> 4
    slotId := ((headerOctet h 2 &&& 0x0F) <<< 2) ||| (headerOctet h 3 >>> 6)
    symbolId := headerOctet h 3 &&& 0x3F
    startPrbu := ((headerOctet h 5 &&& 0x03) <<< 8) ||| headerOctet h 6
    numPrbu := if headerOctet h 7 = 0 then maxPrbs else headerOctet h 7 }

end Sys2Proof.Machine
end

