-- ==== Sys2Proof/Machine/Crc32.lean ====
section
/-! DEFINITION. The CRC32 engine and the CRC32 command (spec/40_crc32.md R120 to R123). -/

namespace Sys2Proof.Machine

/-- One of the eight shifts of an octet (R120). -/
def crcShift (r : BitVec 32) : BitVec 32 := if r.getLsbD 0 then (r >>> 1) ^^^ crcPoly else r >>> 1

/-- `n` shifts. -/
def crcShifts : Nat → BitVec 32 → BitVec 32
  | 0, r => r
  | n + 1, r => crcShifts n (crcShift r)

/-- One octet through the CRC register (R120). -/
def crcOctet (r : BitVec 32) (b : Octet) : BitVec 32 := crcShifts 8 (r ^^^ b.zeroExtend 32)

/-- `crc32(s)` (R120). The spec defines it for sequences of at least one octet; no rule asks for it on the empty one (R122). The
fold's accumulator is the 32-bit CRC register of R47, which lives only here. -/
def crc32 (s : List Octet) : BitVec 32 := (s.foldl crcOctet crcInit) ^^^ crcFinalXor

/-- `fcs_octets(s)`: most significant octet first (R99, R121). -/
def fcsOctets (s : List Octet) : List Octet := be32 (crc32 s)

/-- CRC32 (R123). -/
def execCrc32 (s : State) : Host.Outcome State Fault Refusal :=
  if s.lenOperand = 0 then .next (s.unitError .crcInputEmpty)
  else if s.scrHolds s.srcOperand s.lenOperand then
    match Mem.readRange s.scr s.srcOperand s.lenOperand with
    | none => .fault .unwrittenOctet
    | some input => .next { s with resCrc := crc32 input, lerr := .noError }
  else .next (s.unitError .resourceExceeded)

end Sys2Proof.Machine
end

