-- ==== Sys2Proof/Machine/Ethernet.lean ====
section
/-! DEFINITION. The Ethernet frame builder and ETH_BUILD (spec/43_ethernet.md R150 to R157; layout R98 to R100). -/

namespace Sys2Proof.Machine

/-- The octets the FCS covers, steps 2 to 5 (R150, R151). -/
def ethBody (d src : BitVec 48) (e2 pl : List Octet) : List Octet := be48 d ++ be48 src ++ e2 ++ pl

/-- The alignment padding of a frame that is L octets before it (R152). -/
def padCount (l : Nat) : Nat := (4 - l % 4) % 4

/-- `frame_len(P, ifg)` (R154). -/
def frameLen (p ifg : Nat) : Nat := 26 + p + ifg + padCount (26 + p + ifg)

/-- The frame before its padding, steps 1 to 7 (R150). -/
def ethUnpadded (d src : BitVec 48) (e2 pl : List Octet) (ifg : Nat) : List Octet :=
  preambleSfd ++ ethBody d src e2 pl ++ fcsOctets (ethBody d src e2 pl) ++ List.replicate ifg ifgOctet

/-- `eth_frame` (R150): no padding but that of step 8 (R157), and the limit on the final length (R153). -/
def ethFrame (d src : BitVec 48) (e2 pl : List Octet) (ifg maxp : Nat) : Except ErrCode (List Octet) :=
  let f := ethUnpadded d src e2 pl ifg
  let padded := f ++ List.replicate (padCount f.length) ifgOctet
  if padded.length > maxp then .error .ethernetFrameTooLarge else .ok padded

/-- What ETH_BUILD hands to the FCS (R155). -/
def State.ethBuildBody (s : State) (pl : List Octet) : List Octet :=
  ethBody s.cfg.destMac s.cfg.srcMac (be16 (s.arg.ether.setWidth 16)) pl

/-- ETH_BUILD (R155): RES_CRC gets the CRC of the frame's body. -/
def execEthBuild (s : State) : Host.Outcome State Fault Refusal :=
  runBuilder (checkEthOperands s)
    (fun pl => ethFrame s.cfg.destMac s.cfg.srcMac (be16 (s.arg.ether.setWidth 16)) pl s.cfg.minIfg.toNat s.cfg.maxPkt.toNat)
    (fun pl t => { t with resCrc := crc32 (s.ethBuildBody pl) }) s

end Sys2Proof.Machine
end

