-- ==== Sys2Proof/Machine/Planner.lean ====
section
/-! DEFINITION. The capacity planner and PLAN (spec/44_planner.md R160 to R172). -/

namespace Sys2Proof.Machine

/-- Normalization of a PRB count: 0 becomes 273 (R160). -/
def normalizePrb (v : Word) : Nat := if v = 0 then maxPrbs else v.toNat

/-- Fixed payload mode (R36). -/
def CfgRegs.fixedMode (c : CfgRegs) : Bool := decide (c.payloadType = 1)

/-- The derived plan (R160 to R166, R168, R172), on unbounded naturals. -/
def planValues (c : CfgRegs) : PlanValues :=
  let maxNrb := normalizePrb c.maxNrb
  let nrbPerPkt := normalizePrb c.nrbPerPkt
  let framesRadio := c.captureMs.toNat / 10
  let slotsPerSf := c.scs.toNat / 15
  let pktsPerSymbol := ceilDiv maxNrb nrbPerPkt
  let pktsPerSlot := pktsPerSymbol * symbolsPerSlot
  let pktsPerSubframe := pktsPerSlot * slotsPerSf
  let pktsPerFrame := pktsPerSubframe * subframesPerFrame
  let totalPackets := pktsPerFrame * framesRadio
  let iqPerPkt := iqOctetsPerPrb * nrbPerPkt
  { totalBytes := c.lineRate.toNat * c.captureMs.toNat * 10 ^ 6 / 8
    framesRadio := framesRadio
    slotsPerSf := slotsPerSf
    pktsPerSymbol := pktsPerSymbol
    pktsPerSlot := pktsPerSlot
    pktsPerSubframe := pktsPerSubframe
    pktsPerFrame := pktsPerFrame
    totalPackets := totalPackets
    iqPerPkt := iqPerPkt
    maxNrb := maxNrb
    nrbPerPkt := nrbPerPkt
    poolLen := if c.fixedMode then c.poolLen.toNat else totalPackets * iqPerPkt
    frameLen := frameLen (16 + iqPerPkt) c.minIfg.toNat }

/-- The range checks of R167's second line fail. -/
def cfgOutOfRange (c : CfgRegs) : Bool :=
  decide (c.lineRate.toNat > 255) || decide (c.captureMs.toNat > 255) || decide (c.minIfg.toNat > 255) ||
    decide (c.maxNrb.toNat > maxPrbs) || decide (c.nrbPerPkt.toNat > maxPrbs)

/-- The width check of R169 fails. -/
def planTooWide (v : PlanValues) : Bool :=
  decide (v.totalBytes ≥ wordLimit) || decide (v.pktsPerSubframe ≥ wordLimit) || decide (v.pktsPerFrame ≥ wordLimit) ||
    decide (v.totalPackets ≥ wordLimit) || decide (v.totalPackets * v.iqPerPkt ≥ wordLimit)

/-- The pool check of R168 fails: in fixed mode, a pool length of 0, odd, or larger than POOL_CAP. -/
def poolUnusable (p : Params) (c : CfgRegs) : Bool :=
  c.fixedMode &&
    (decide (c.poolLen.toNat = 0) || decide (c.poolLen.toNat % 2 = 1) || decide (c.poolLen.toNat > p.poolCap))

/-- `plan_checks` (R167, R204): the first check that fails is the one reported. -/
def planChecks (p : Params) (c : CfgRegs) : Except ErrCode PlanValues :=
  if c.payloadType ≠ 1 ∧ c.payloadType ≠ 2 then .error .invalidPayloadType
  else if cfgOutOfRange c then .error .planInfeasible
  else if c.scs.toNat = 0 ∨ c.scs.toNat % 15 ≠ 0 then .error .planInfeasible
  else if c.captureMs.toNat = 0 ∨ c.captureMs.toNat % 10 ≠ 0 then .error .planInfeasible
  else if normalizePrb c.nrbPerPkt > normalizePrb c.maxNrb then .error .planInfeasible
  else if planTooWide (planValues c) then .error .planInfeasible
  else if poolUnusable p c then .error .iqSourceFailure
  else if (planValues c).totalBytes > p.outCap then .error .resourceExceeded
  else .ok (planValues c)

/-- The plan as the PLAN_ registers hold it (R171). -/
def PlanValues.toRegs (v : PlanValues) : PlanRegs :=
  { totalBytes := BitVec.ofNat 64 v.totalBytes
    framesRadio := BitVec.ofNat 64 v.framesRadio
    slotsPerSf := BitVec.ofNat 64 v.slotsPerSf
    pktsPerSymbol := BitVec.ofNat 64 v.pktsPerSymbol
    pktsPerSlot := BitVec.ofNat 64 v.pktsPerSlot
    pktsPerSubframe := BitVec.ofNat 64 v.pktsPerSubframe
    pktsPerFrame := BitVec.ofNat 64 v.pktsPerFrame
    totalPackets := BitVec.ofNat 64 v.totalPackets
    iqPerPkt := BitVec.ofNat 64 v.iqPerPkt
    maxNrb := BitVec.ofNat 64 v.maxNrb
    nrbPerPkt := BitVec.ofNat 64 v.nrbPerPkt
    poolLen := BitVec.ofNat 64 v.poolLen
    frameLen := BitVec.ofNat 64 v.frameLen }

/-- PLAN's writes after its checks (R171, R181). -/
def State.planned (r : PlanRegs) (s : State) : State :=
  { s with
    plan := r
    packetNo := 0
    emitted := 0
    resTrailIfg := 0
    ids := IdCounters.zero
    phase := .planned }

/-- The body of PLAN (R171). -/
def planBody (s : State) : Body :=
  match planChecks s.params s.cfg with
  | .error c => .raised c s
  | .ok v => .done (s.planned v.toRegs)

/-- PLAN (R171), legal in IDLE only. -/
def execPlan (s : State) : Host.Outcome State Fault Refusal := sequencerCommand (planLegality s) planBody s

end Sys2Proof.Machine
end

