-- ==== Sys2Proof/Machine/Assembler.lean ====
section
/-! DEFINITION. The stream assembler and the commands STEP, RUN, FINISH and CLEAR (spec/45_assembler.md R180 to R195). -/

namespace Sys2Proof.Machine

/-- `advance(p)` (R184), on the counters: at the start of packet p ≥ 1. Arithmetic is on naturals (R11); the results are stored at
the widths of R45. -/
def advanceIds (pl : PlanRegs) (p : Nat) (d : IdCounters) : IdCounters :=
  { symbolId :=
      if p % pl.pktsPerSymbol.toNat = 0 then BitVec.ofNat 4 ((d.symbolId.toNat + 1) % symbolsPerSlot) else d.symbolId
    slotId :=
      if p % pl.pktsPerSlot.toNat = 0 then BitVec.ofNat 64 ((d.slotId.toNat + 1) % pl.slotsPerSf.toNat) else d.slotId
    subframeId :=
      if p % pl.pktsPerSubframe.toNat = 0 then BitVec.ofNat 4 ((d.subframeId.toNat + 1) % subframesPerFrame)
      else d.subframeId
    frameId :=
      if p % pl.pktsPerFrame.toNat = 0 then BitVec.ofNat 8 ((d.frameId.toNat + 1) % frameIdModulus) else d.frameId
    ecpriSeqId := BitVec.ofNat 8 (p % ecpriSeqModulus)
    startPrbu :=
      if d.startPrbu.toNat + pl.nrbPerPkt.toNat ≥ pl.maxNrb.toNat then 0
      else BitVec.ofNat 16 (d.startPrbu.toNat + pl.nrbPerPkt.toNat) }

/-- STEP's first statement (R190): packet 0 is not advanced, every later one is (R184, R244). -/
def State.advanced (s : State) : State :=
  if s.packetNo.toNat = 0 then s else { s with ids := advanceIds s.plan s.packetNo.toNat s.ids }

/-- `pool_octet(k)` (R182): in fixed mode the pool octet at k mod PLAN_POOL_LEN, in random mode `rng_octet` of the seed and k. -/
def State.poolOctet (s : State) (k : Nat) : Except Fault Octet :=
  if s.cfg.fixedMode then s.readOctet .pool (k % s.plan.poolLen.toNat)
  else .ok (Config.rngOctet s.cfg.rngSeed (BitVec.ofNat 64 k))

/-- `n` pool octets from the cursor k on. -/
def State.poolOctets (s : State) (k : Nat) : Nat → Except Fault (List Octet)
  | 0 => .ok []
  | n + 1 =>
    match s.poolOctet k with
    | .error f => .error f
    | .ok b =>
      match State.poolOctets s (k + 1) n with
      | .error f => .error f
      | .ok bs => .ok (b :: bs)

/-- `iq_slice(p)` (R183). -/
def State.iqSlice (s : State) (p : Nat) : Except Fault (List Octet) :=
  s.poolOctets (p * s.plan.iqPerPkt.toNat) s.plan.iqPerPkt.toNat

/-- `ether_value(ec_len)` (R188). -/
def etherValue (sel : EtherFieldSel) (ecLen : Nat) : Nat :=
  match sel with
  | .length => ecLen
  | .ecpriEthertype => ecpriEthertypeValue

/-- The O-RAN fields of the packet being built (R189): `num_prbu` is the normalized `nrb_per_packet` of every packet (D12). -/
def State.oranFields (s : State) : OranFields :=
  { frameId := s.ids.frameId.toNat
    subframeId := s.ids.subframeId.toNat
    slotId := s.ids.slotId.toNat
    symbolId := s.ids.symbolId.toNat
    startPrbu := s.ids.startPrbu.toNat
    numPrbu := s.plan.nrbPerPkt.toNat }

/-- `build_packet(iq)` (R189): O-RAN, eCPRI, Ethernet; the first error wins (R206). -/
def State.buildPacket (s : State) (iq : List Octet) : Except ErrCode (List Octet) :=
  match oranPacket s.oranFields iq with
  | .error c => .error c
  | .ok oran =>
    match ecpriPacket s.ids.ecpriSeqId.toNat oran with
    | .error c => .error c
    | .ok ec =>
      ethFrame s.cfg.destMac s.cfg.srcMac (be16 (BitVec.ofNat 16 (etherValue s.params.etherSel ec.length))) ec
        s.cfg.minIfg.toNat s.cfg.maxPkt.toNat

/-- STEP's last three statements (R190): the frame is emitted, `packet_no` advances by 1, the phase is RUNNING. -/
def State.frameEmitted (fr : List Octet) (s : State) : State :=
  { s.emit fr with packetNo := s.packetNo + 1, phase := .running }

/-- The state in which the builders run (R190): the counters advanced, the IQ slice in the scratch buffer (R48). -/
def State.sliced (iq : List Octet) (s : State) : State := { s.advanced with iqScratch := iq }

/-- The body of STEP (R190). The slice reads the plan, the configuration and POOL, none of which the advance changes. -/
def stepBody (s : State) : Body :=
  match s.iqSlice s.packetNo.toNat with
  | .error f => .faulted f
  | .ok iq =>
    match (s.sliced iq).buildPacket iq with
    | .error c => .raised c (s.sliced iq)
    | .ok fr => .done ((s.sliced iq).frameEmitted fr)

/-- STEP (R190). -/
def execStep (s : State) : Host.Outcome State Fault Refusal := sequencerCommand (stepLegality s) stepBody s

/-- FINISH's writes (R192): t octets of 0x07, t in RES_TRAIL_IFG, the phase DONE. -/
def State.finished (t : Nat) (s : State) : State :=
  { s.emit (List.replicate t ifgOctet) with resTrailIfg := BitVec.ofNat 64 t, phase := .done }

/-- The body of FINISH (R192). -/
def finishBody (s : State) : Body :=
  if s.emitted.toNat > s.plan.totalBytes.toNat then .raised .planInfeasible s
  else .done (s.finished (s.plan.totalBytes.toNat - s.emitted.toNat))

/-- FINISH (R192). -/
def execFinish (s : State) : Host.Outcome State Fault Refusal := sequencerCommand (finishLegality s) finishBody s

/-- `n` packets by STEP's body, then FINISH's body; a raise or a fault ends it (R191). -/
def runLoop : Nat → State → Body
  | 0, s => finishBody s
  | n + 1, s =>
    match stepBody s with
    | .done t => runLoop n t
    | .raised c t => .raised c t
    | .faulted f => .faulted f

/-- The body of RUN (R191): the packets from `packet_no` to PLAN_TOTAL_PACKETS. -/
def runBody (s : State) : Body := runLoop (s.plan.totalPackets.toNat - s.packetNo.toNat) s

/-- RUN (R191). -/
def execRun (s : State) : Host.Outcome State Fault Refusal := sequencerCommand (runLegality s) runBody s

/-- CLEAR (R193), legal in every phase. -/
def execClear (s : State) : Host.Outcome State Fault Refusal := .next s.cleared

end Sys2Proof.Machine
end

