-- ==== Sys2Proof/Machine/Dispatch.lean ====
section
/-! DEFINITION. One arm per command of R91, each a direct call of its meaning. -/

namespace Sys2Proof.Machine

def exec (i : Instr) (s : State) : Host.Outcome State Fault Refusal :=
  match i with
  | .clear => Sys2Proof.Machine.execClear s
  | .plan => Sys2Proof.Machine.execPlan s
  | .step => Sys2Proof.Machine.execStep s
  | .run => Sys2Proof.Machine.execRun s
  | .finish => Sys2Proof.Machine.execFinish s
  | .crc32 => Sys2Proof.Machine.execCrc32 s
  | .oranBuild => Sys2Proof.Machine.execOranBuild s
  | .ecpriBuild => Sys2Proof.Machine.execEcpriBuild s
  | .ethBuild => Sys2Proof.Machine.execEthBuild s

end Sys2Proof.Machine
end

