-- ==== Sys2Proof/Machine/HostPort.lean ====
section
/-! DEFINITION. The host's side of the interface (R20): the register file (R21 to R42), the octet accesses (R60 to R72), hardware reset
(R230), and the issue of a command by a CMD write (R28). -/

namespace Sys2Proof.Machine

/-- The index of a register (R22). -/
def regIndex : Reg → Fin 64
  | .status => 0x00
  | .cmd => 0x01
  | .cfgLineRate => 0x02
  | .cfgCaptureMs => 0x03
  | .cfgMinIfg => 0x04
  | .cfgDestMac => 0x05
  | .cfgSrcMac => 0x06
  | .cfgMaxPkt => 0x07
  | .cfgScs => 0x08
  | .cfgMaxNrb => 0x09
  | .cfgNrbPerPkt => 0x0A
  | .cfgPayloadType => 0x0B
  | .cfgPoolLen => 0x0C
  | .cfgRngSeed => 0x0D
  | .argSrc => 0x10
  | .argLen => 0x11
  | .argDst => 0x12
  | .argFrame => 0x13
  | .argSubframe => 0x14
  | .argSlot => 0x15
  | .argSymbol => 0x16
  | .argStartPrbu => 0x17
  | .argNumPrbu => 0x18
  | .argSeq => 0x19
  | .argEther => 0x1A
  | .resCrc => 0x20
  | .resLen => 0x21
  | .resTrailIfg => 0x22
  | .outLen => 0x23
  | .pktNo => 0x24
  | .planTotalBytes => 0x30
  | .planFramesRadio => 0x31
  | .planSlotsPerSf => 0x32
  | .planPktsPerSymbol => 0x33
  | .planPktsPerSlot => 0x34
  | .planPktsPerSubframe => 0x35
  | .planPktsPerFrame => 0x36
  | .planTotalPackets => 0x37
  | .planIqPerPkt => 0x38
  | .planMaxNrb => 0x39
  | .planNrbPerPkt => 0x3A
  | .planPoolLen => 0x3B
  | .planFrameLen => 0x3C

/-- The register an index names, none where R22 lists no register (R21). -/
def regAt (i : Fin 64) : Option Reg :=
  match i.val with
  | 0x00 => some .status
  | 0x01 => some .cmd
  | 0x02 => some .cfgLineRate
  | 0x03 => some .cfgCaptureMs
  | 0x04 => some .cfgMinIfg
  | 0x05 => some .cfgDestMac
  | 0x06 => some .cfgSrcMac
  | 0x07 => some .cfgMaxPkt
  | 0x08 => some .cfgScs
  | 0x09 => some .cfgMaxNrb
  | 0x0A => some .cfgNrbPerPkt
  | 0x0B => some .cfgPayloadType
  | 0x0C => some .cfgPoolLen
  | 0x0D => some .cfgRngSeed
  | 0x10 => some .argSrc
  | 0x11 => some .argLen
  | 0x12 => some .argDst
  | 0x13 => some .argFrame
  | 0x14 => some .argSubframe
  | 0x15 => some .argSlot
  | 0x16 => some .argSymbol
  | 0x17 => some .argStartPrbu
  | 0x18 => some .argNumPrbu
  | 0x19 => some .argSeq
  | 0x1A => some .argEther
  | 0x20 => some .resCrc
  | 0x21 => some .resLen
  | 0x22 => some .resTrailIfg
  | 0x23 => some .outLen
  | 0x24 => some .pktNo
  | 0x30 => some .planTotalBytes
  | 0x31 => some .planFramesRadio
  | 0x32 => some .planSlotsPerSf
  | 0x33 => some .planPktsPerSymbol
  | 0x34 => some .planPktsPerSlot
  | 0x35 => some .planPktsPerSubframe
  | 0x36 => some .planPktsPerFrame
  | 0x37 => some .planTotalPackets
  | 0x38 => some .planIqPerPkt
  | 0x39 => some .planMaxNrb
  | 0x3A => some .planNrbPerPkt
  | 0x3B => some .planPoolLen
  | 0x3C => some .planFrameLen
  | _ => none

/-- What a host read of a register returns (R21 to R46): CMD reads 0, a MAC register and RES_CRC read 0 in the bits they do not use, OUT_LEN
reads EMITTED[63:0]. -/
def State.regRead (s : State) : Reg → Word
  | .status => s.statusWord
  | .cmd => 0
  | .cfgLineRate => s.cfg.lineRate
  | .cfgCaptureMs => s.cfg.captureMs
  | .cfgMinIfg => s.cfg.minIfg
  | .cfgDestMac => s.cfg.destMac.zeroExtend 64
  | .cfgSrcMac => s.cfg.srcMac.zeroExtend 64
  | .cfgMaxPkt => s.cfg.maxPkt
  | .cfgScs => s.cfg.scs
  | .cfgMaxNrb => s.cfg.maxNrb
  | .cfgNrbPerPkt => s.cfg.nrbPerPkt
  | .cfgPayloadType => s.cfg.payloadType
  | .cfgPoolLen => s.cfg.poolLen
  | .cfgRngSeed => s.cfg.rngSeed
  | .argSrc => s.arg.src
  | .argLen => s.arg.len
  | .argDst => s.arg.dst
  | .argFrame => s.arg.frame
  | .argSubframe => s.arg.subframe
  | .argSlot => s.arg.slot
  | .argSymbol => s.arg.symbol
  | .argStartPrbu => s.arg.startPrbu
  | .argNumPrbu => s.arg.numPrbu
  | .argSeq => s.arg.seq
  | .argEther => s.arg.ether
  | .resCrc => s.resCrc.zeroExtend 64
  | .resLen => s.resLen
  | .resTrailIfg => s.resTrailIfg
  | .outLen => s.emitted.setWidth 64
  | .pktNo => s.packetNo
  | .planTotalBytes => s.plan.totalBytes
  | .planFramesRadio => s.plan.framesRadio
  | .planSlotsPerSf => s.plan.slotsPerSf
  | .planPktsPerSymbol => s.plan.pktsPerSymbol
  | .planPktsPerSlot => s.plan.pktsPerSlot
  | .planPktsPerSubframe => s.plan.pktsPerSubframe
  | .planPktsPerFrame => s.plan.pktsPerFrame
  | .planTotalPackets => s.plan.totalPackets
  | .planIqPerPkt => s.plan.iqPerPkt
  | .planMaxNrb => s.plan.maxNrb
  | .planNrbPerPkt => s.plan.nrbPerPkt
  | .planPoolLen => s.plan.poolLen
  | .planFrameLen => s.plan.frameLen

/-- What a host read of an index returns: an index that R22 does not list reads 0 (R21). -/
def State.indexRead (s : State) (i : Fin 64) : Word :=
  match regAt i with
  | some r => s.regRead r
  | none => 0

/-- A write to a locked register or to POOL is dropped: STATUS.LOCKED becomes 1 and nothing else changes (R27). -/
def State.lockSet (s : State) : State := { s with locked := true }

/-- A write to a CFG_ register: it takes effect in IDLE and is dropped in every other phase (R39). -/
def State.cfgWrite (c : CfgRegs) (s : State) : State := if s.phase = .idle then { s with cfg := c } else s.lockSet

/-- A host write to a register other than CMD (R21, R32, R39, R40): a MAC register keeps bits [47:0], a read-only register keeps its
value. CMD holds no state (R28). -/
def State.regWrite (s : State) (v : Word) : Reg → State
  | .status => s
  | .cmd => s
  | .cfgLineRate => s.cfgWrite { s.cfg with lineRate := v }
  | .cfgCaptureMs => s.cfgWrite { s.cfg with captureMs := v }
  | .cfgMinIfg => s.cfgWrite { s.cfg with minIfg := v }
  | .cfgDestMac => s.cfgWrite { s.cfg with destMac := v.setWidth 48 }
  | .cfgSrcMac => s.cfgWrite { s.cfg with srcMac := v.setWidth 48 }
  | .cfgMaxPkt => s.cfgWrite { s.cfg with maxPkt := v }
  | .cfgScs => s.cfgWrite { s.cfg with scs := v }
  | .cfgMaxNrb => s.cfgWrite { s.cfg with maxNrb := v }
  | .cfgNrbPerPkt => s.cfgWrite { s.cfg with nrbPerPkt := v }
  | .cfgPayloadType => s.cfgWrite { s.cfg with payloadType := v }
  | .cfgPoolLen => s.cfgWrite { s.cfg with poolLen := v }
  | .cfgRngSeed => s.cfgWrite { s.cfg with rngSeed := v }
  | .argSrc => { s with arg := { s.arg with src := v } }
  | .argLen => { s with arg := { s.arg with len := v } }
  | .argDst => { s with arg := { s.arg with dst := v } }
  | .argFrame => { s with arg := { s.arg with frame := v } }
  | .argSubframe => { s with arg := { s.arg with subframe := v } }
  | .argSlot => { s with arg := { s.arg with slot := v } }
  | .argSymbol => { s with arg := { s.arg with symbol := v } }
  | .argStartPrbu => { s with arg := { s.arg with startPrbu := v } }
  | .argNumPrbu => { s with arg := { s.arg with numPrbu := v } }
  | .argSeq => { s with arg := { s.arg with seq := v } }
  | .argEther => { s with arg := { s.arg with ether := v } }
  | .resCrc => s
  | .resLen => s
  | .resTrailIfg => s
  | .outLen => s
  | .pktNo => s
  | .planTotalBytes => s
  | .planFramesRadio => s
  | .planSlotsPerSf => s
  | .planPktsPerSymbol => s
  | .planPktsPerSlot => s
  | .planPktsPerSubframe => s
  | .planPktsPerFrame => s
  | .planTotalPackets => s
  | .planIqPerPkt => s
  | .planMaxNrb => s
  | .planNrbPerPkt => s
  | .planPoolLen => s
  | .planFrameLen => s

/-- A CMD write issues the command its word encodes, which runs to completion (R28, R93); an illegal word raises IllegalCommand, and is
ignored in phase ERROR (R92, R194). -/
def issueCommand (w : Word) (s : State) : Host.Outcome State Fault Refusal :=
  match decode w with
  | .ok i => exec i s
  | .error _ => .next s.illegalCommand

/-- A host write to a register index (R21, R28). -/
def indexWrite (i : Fin 64) (v : Word) (s : State) : Host.Outcome State Fault Refusal :=
  match regAt i with
  | some .cmd => issueCommand v s
  | some r => .next (s.regWrite v r)
  | none => .next s

/-- The host receives what a read returned. No field of the FSA changes (R72). -/
def State.answer (x : HostAnswer) (s : State) : State := { s with answers := x :: s.answers }

/-- A host write of one octet (R60, R68, R72): POOL only in IDLE, SCR in any phase, OUT never. A write at an
address outside the space stores no octet of it, and does nothing (R60, R72 "every other write does nothing"; log entry 6). -/
def octetWrite (sp : OctetSpace) (a : Nat) (b : Octet) (s : State) : Host.Outcome State Fault Refusal :=
  if a < s.cap sp then
    match sp with
    | .pool => if s.phase = .idle then .next { s with pool := Mem.writeRange s.pool a [b] } else .next s.lockSet
    | .scr => .next { s with scr := Mem.writeRange s.scr a [b] }
    | .out => .next s
  else .next s

/-- The stream octets the host may read: those emitted and stored, in phases RUNNING and DONE (R67). -/
def State.outReadable (s : State) (a : Nat) : Bool :=
  (decide (s.phase = .running) || decide (s.phase = .done)) && decide (a < min s.emitted.toNat s.params.outCap)

/-- A host read of one octet (R60, R64, R67). -/
def State.hostOctet (s : State) (sp : OctetSpace) (a : Nat) : Except Fault Octet :=
  match sp with
  | .pool => s.readOctet .pool a
  | .scr => s.readOctet .scr a
  | .out => if s.outReadable a then s.readOctet .out a else .error .unspecifiedOutOctet

/-- A host read of one octet, as a step. -/
def octetRead (sp : OctetSpace) (a : Nat) (s : State) : Host.Outcome State Fault Refusal :=
  match s.hostOctet sp a with
  | .ok b => .next (s.answer (.octet b))
  | .error f => .fault f

/-- Hardware reset (R230): every register 0, the phase IDLE, the counters 0, every octet unwritten. The open parameters are constants, and
what the host holds is the host's. -/
def State.hardwareReset (s : State) : State :=
  { State.reset with params := s.params, script := s.script, answers := s.answers }

/-- What one host event does (R20, R72). -/
def perform (e : HostEvent) (s : State) : Host.Outcome State Fault Refusal :=
  match e with
  | .writeReg i v => indexWrite i v s
  | .readReg i => .next (s.answer (.reg (s.indexRead i)))
  | .writeOctet sp a b => octetWrite sp a b s
  | .readOctet sp a => octetRead sp a s
  | .partialReg _ _ _ => .refused .partialRegisterAccess
  | .hardwareReset => .next s.hardwareReset

/-- The host's next event is taken off its script. -/
def State.popEvent (s : State) : State := { s with script := s.script.tail }

/-- The event that writes a table word to CMD (R28, R90): `nbits` bits of `w`, the bits above them 0. -/
def commandEvent (nbits w : Nat) : HostEvent := .writeReg 0x01 (BitVec.ofNat 64 (w % 2 ^ nbits))

end Sys2Proof.Machine
end

