-- ==== Sys2Proof/Machine/Step.lean ====
section
/-! DEFINITION. One step of the machine: the host's next event, performed whole (R20, R74). The FSA fetches nothing (R44); where the host
has no event for it, it holds its state and does nothing (R218, R231). -/

namespace Sys2Proof.Machine

/-- One step (log entry 1). -/
def step (s : State) : Host.Outcome State Fault Refusal :=
  match s.script with
  | [] => .next s
  | e :: _ => perform e s.popEvent

/-- `s` with a command word as the host's next event, a write to CMD (R28), so that the next step issues it (log entry 1). -/
def State.withFetchWord (s : State) (nbits w : Nat) : State := { s with script := commandEvent nbits w :: s.script }

end Sys2Proof.Machine
end

