-- ==== Sys2Proof/Machine/Script.lean ====
section
/-! DEFINITION. The host scripts of R101 and R102 as sequences of host events, and the part of the host's collaborators that the spec gives as
the interface through which the FSA is filled and read (spec/20_memory.md R80, R82 to R84). The text formats themselves are out of scope
(spec/00_scope.md R8). None of this is the FSA's: a step never calls it. -/

namespace Sys2Proof.Machine

/-! ### Host scripts -/

/-- `WR <reg>, <value>` (R101). -/
def writeEvent (r : Reg) (v : Word) : HostEvent := .writeReg (regIndex r) v

/-- One octet write for each octet, to addresses rising from `a` (R101 `WB`). -/
def octetWriteEvents (sp : OctetSpace) : Nat → List Octet → List HostEvent
  | _, [] => []
  | a, b :: bs => .writeOctet sp a b :: octetWriteEvents sp (a + 1) bs

/-- `<MNEMONIC>` expands to `WR CMD, <OPC>` (R102). -/
def issueEvent (i : Instr) : HostEvent := writeEvent .cmd (encode i)

/-- A `UNIT` field that is left out is not written (R102). -/
def optionalWrite (r : Reg) : Option Word → List HostEvent
  | none => []
  | some v => [writeEvent r v]

/-- The host accesses of a script line, the expansions of R102 among them. -/
def lineEvents : ScriptLine → List HostEvent
  | .wr r v => [writeEvent r v]
  | .rd r => [.readReg (regIndex r)]
  | .wb sp a os => octetWriteEvents sp a os
  | .rb sp a => [.readOctet sp a]
  | .command i => [issueEvent i]
  | .loadPool os => octetWriteEvents .pool 0 os ++ [writeEvent .cfgPoolLen (BitVec.ofNat 64 os.length)]
  | .unit i src len dst => optionalWrite .argSrc src ++ optionalWrite .argLen len ++ optionalWrite .argDst dst ++ [issueEvent i]

/-- The host accesses of a script, in the host's program order (R74, R101). -/
def scriptEvents (ls : List ScriptLine) : List HostEvent := ls.flatMap lineEvents

/-- A machine whose host has the script to present. -/
def State.withScript (s : State) (ls : List ScriptLine) : State := { s with script := scriptEvents ls }

/-! ### Host-side collaborators -/

/-- The configuration keys of R80 that have a register. -/
inductive ConfigKey where
  | ethLineRate
  | ethCaptureSizeMs
  | ethMinNumOfIFGsPerPacket
  | ethDestAddress
  | ethSourceAddress
  | ethMaxPacketSize
  | oranSCS
  | oranMaxNrb
  | oranNrbPerPacket
  | oranPayloadType
  deriving DecidableEq, Repr

/-- The text of a key (R80). -/
def ConfigKey.text : ConfigKey → String
  | .ethLineRate => "Eth.LineRate"
  | .ethCaptureSizeMs => "Eth.CaptureSizeMs"
  | .ethMinNumOfIFGsPerPacket => "Eth.MinNumOfIFGsPerPacket"
  | .ethDestAddress => "Eth.DestAddress"
  | .ethSourceAddress => "Eth.SourceAddress"
  | .ethMaxPacketSize => "Eth.MaxPacketSize"
  | .oranSCS => "Oran.SCS"
  | .oranMaxNrb => "Oran.MaxNrb"
  | .oranNrbPerPacket => "Oran.NrbPerPacket"
  | .oranPayloadType => "Oran.PayloadType"

/-- The register a key's value is written to (R80). -/
def ConfigKey.register : ConfigKey → Reg
  | .ethLineRate => .cfgLineRate
  | .ethCaptureSizeMs => .cfgCaptureMs
  | .ethMinNumOfIFGsPerPacket => .cfgMinIfg
  | .ethDestAddress => .cfgDestMac
  | .ethSourceAddress => .cfgSrcMac
  | .ethMaxPacketSize => .cfgMaxPkt
  | .oranSCS => .cfgScs
  | .oranMaxNrb => .cfgMaxNrb
  | .oranNrbPerPacket => .cfgNrbPerPkt
  | .oranPayloadType => .cfgPayloadType

/-- What the host writes to CFG_PAYLOAD_TYPE for a value of `Oran.PayloadType` (R82). -/
def payloadTypeWord (value : String) : Word :=
  if value = "fixed" then 1 else if value = "random" then 2 else 0

/-- The pool octets of the I/Q pairs of a file, in file order: I at 2k, Q at 2k+1 (R62, R83). -/
def pairOctets (pairs : List (Int × Int)) : List Octet := pairs.flatMap fun p => [sampleOctet p.1, sampleOctet p.2]

/-- The script line that loads the pairs of a file and their octet count (R83). -/
def loadPairs (pairs : List (Int × Int)) : ScriptLine := .loadPool (pairOctets pairs)

/-- A lowercase hexadecimal digit. -/
def hexDigit (n : Nat) : Char := "0123456789abcdef".toList.getD n '0'

/-- The two characters of an octet (R84). -/
def hexOctet (b : Octet) : List Char := [hexDigit (b.toNat / 16), hexDigit (b.toNat % 16)]

/-- The output text of a stream (R84): two characters an octet, a newline after every fourth octet. `k` octets stand on the line so far. -/
def hexText : Nat → List Octet → List Char
  | _, [] => []
  | k, b :: bs => if k % 4 = 3 then hexOctet b ++ '\n' :: hexText 0 bs else hexOctet b ++ hexText (k + 1) bs

end Sys2Proof.Machine
end

