-- ==== Sys2Proof/Safety.lean ====
section
/-! DEFINITION. The terms the claims use: the invariants of the machine, the closed forms of the identifiers (R185, R186), the content of
the stream (R195), and the outcomes a run can have (R173). -/

namespace Sys2Proof.Machine

/-! ### Memory -/

/-- The three octet spaces have their canonical form. -/
def State.memoriesWf (s : State) : Bool :=
  Mem.wf s.params.poolCap s.pool && Mem.wf s.params.scrCap s.scr && Mem.wf s.params.outCap s.out

/-! ### Status -/

/-- The codes STATUS.ERR can hold (R201, its S entries; R203): 6 is unreachable from a sequencer command (R141). -/
def fatalCodes : List ErrCode :=
  [.noError, .iqSourceFailure, .planInfeasible, .oranFieldOverflow, .ethernetFrameTooLarge, .invalidPayloadType, .illegalCommand,
    .resourceExceeded]

/-- The codes STATUS.LERR can hold (R201, its U entries; R203). -/
def unitCodes : List ErrCode :=
  [.noError, .oranFieldOverflow, .ecpriPayloadTooLarge, .ethernetFrameTooLarge, .crcInputEmpty, .illegalCommand, .resourceExceeded]

/-- ERR is 0 exactly outside phase ERROR (R23, R25), and both codes are ones the commands can raise (R201). -/
def State.statusWf (s : State) : Bool :=
  (decide (s.err = .noError) == decide (s.phase ≠ .error)) && fatalCodes.contains s.err && unitCodes.contains s.lerr

/-! ### Identifiers -/

/-- The counters packet p is built with, by R181 and R184: 0 for packet 0, one advance for each later packet. -/
def idsAfter (pl : PlanRegs) : Nat → IdCounters
  | 0 => IdCounters.zero
  | p + 1 => advanceIds pl (p + 1) (idsAfter pl p)

/-- The closed forms of R185 and R186. -/
def idsAt (pl : PlanRegs) (p : Nat) : IdCounters :=
  { frameId := BitVec.ofNat 8 (p / pl.pktsPerFrame.toNat % 256)
    subframeId := BitVec.ofNat 4 (p / pl.pktsPerSubframe.toNat % 10)
    slotId := BitVec.ofNat 64 (p / pl.pktsPerSlot.toNat % pl.slotsPerSf.toNat)
    symbolId := BitVec.ofNat 4 (p / pl.pktsPerSymbol.toNat % 14)
    startPrbu := BitVec.ofNat 16 (p % pl.pktsPerSymbol.toNat * pl.nrbPerPkt.toNat)
    ecpriSeqId := BitVec.ofNat 8 (p % 255) }

/-! ### The sequencer -/

/-- The PLAN_ registers are those PLAN derives from the configuration, which passes its checks (R43, R171). -/
def State.planOk (s : State) : Bool :=
  match planChecks s.params s.cfg with
  | .ok v => decide (s.plan = v.toRegs)
  | .error _ => false

/-- No packet has been built (R171, R181, R193). -/
def State.runAtStart (s : State) : Bool :=
  decide (s.packetNo = 0) && decide (s.emitted = 0) && decide (s.ids = IdCounters.zero) && decide (s.resTrailIfg = 0)

/-- Every packet counted is F octets of the stream (R189, R190). -/
def State.framesCounted (s : State) : Bool :=
  decide (s.packetNo.toNat ≤ s.plan.totalPackets.toNat) &&
    decide (s.emitted.toNat = s.packetNo.toNat * s.plan.frameLen.toNat)

/-- What each phase says of the plan, the counters and the counts (R24, R42 to R46, R185, R186, R195). -/
def State.sequencerWf (s : State) : Bool :=
  match s.phase with
  | .idle => decide (s.plan = PlanRegs.zero) && s.runAtStart
  | .planned => s.planOk && s.runAtStart
  | .running =>
    s.planOk && decide (0 < s.packetNo.toNat) && s.framesCounted && decide (s.ids = idsAt s.plan (s.packetNo.toNat - 1)) &&
      decide (s.resTrailIfg = 0)
  | .done =>
    s.planOk && decide (s.packetNo = s.plan.totalPackets) && decide (s.emitted.toNat = s.plan.totalBytes.toNat) &&
      decide (s.ids = idsAt s.plan (s.packetNo.toNat - 1)) &&
      decide (s.packetNo.toNat * s.plan.frameLen.toNat + s.resTrailIfg.toNat = s.plan.totalBytes.toNat)
  | .error =>
    (decide (s.plan = PlanRegs.zero) && s.runAtStart) ||
      (s.planOk && (s.framesCounted ||
        (decide (s.packetNo = s.plan.totalPackets) && decide (s.emitted.toNat = s.plan.totalBytes.toNat))))

/-- The invariant of the machine. -/
def State.invariant (s : State) : Bool := s.memoriesWf && s.statusWf && s.sequencerWf

/-! ### The stream -/

/-- `fr` is the frame of packet p (R189), built with the closed-form identifiers from the packet's slice of the payload (R183). -/
def State.packetFrame (s : State) (p : Nat) (fr : List Octet) : Prop :=
  ∃ iq, s.iqSlice p = .ok iq ∧ ({ s with ids := idsAt s.plan p } : State).buildPacket iq = .ok fr

/-- In RUNNING and DONE, frame p stands at OUT[p·F .. (p+1)·F) for every packet emitted, as far as OUT reaches, and in DONE every later octet
up to `total_bytes` is 0x07 (R66, R195). -/
def State.streamWf (s : State) : Prop :=
  (s.phase = .running ∨ s.phase = .done →
    ∀ p, p < s.packetNo.toNat → ∃ fr, s.packetFrame p fr ∧ fr.length = s.plan.frameLen.toNat ∧
      ∀ j, j < fr.length → p * s.plan.frameLen.toNat + j < s.params.outCap →
        Mem.read s.out (p * s.plan.frameLen.toNat + j) = fr[j]?) ∧
  (s.phase = .done →
    ∀ x, s.packetNo.toNat * s.plan.frameLen.toNat ≤ x → x < s.plan.totalBytes.toNat → Mem.read s.out x = some ifgOctet)

/-! ### Outcomes of a run -/

/-- Every pool octet of the plan is written, or the payload is random: no read of POOL faults (R64, R168, R182). -/
def State.payloadReady (s : State) : Bool :=
  !s.cfg.fixedMode || (List.range s.plan.poolLen.toNat).all (fun a => (Mem.read s.pool a).isSome)

/-- A successful PLAN, nothing emitted yet, the payload in place: where R173 starts. -/
def State.readyToRun (s : State) : Bool :=
  decide (s.phase = .planned) && s.planOk && s.runAtStart && s.payloadReady

/-- Cases 1 to 4 of R173 do not apply. -/
def State.runSucceeds (s : State) : Bool :=
  !(decide (256 ≤ s.plan.nrbPerPkt.toNat) && decide (s.plan.nrbPerPkt.toNat ≤ 272)) &&
    decide (s.plan.frameLen.toNat ≤ s.cfg.maxPkt.toNat) && decide (s.plan.slotsPerSf.toNat ≤ 64) &&
    decide (s.plan.totalPackets.toNat * s.plan.frameLen.toNat ≤ s.plan.totalBytes.toNat)

/-! ### Comparing runs -/

/-- A function of the next state, a stop kept as it is. -/
def mapNext (f : State → State) : Host.Outcome State Fault Refusal → Host.Outcome State Fault Refusal
  | .next s => .next (f s)
  | .fault x => .fault x
  | .refused r => .refused r

/-- `s` with other unit-command state: the operands, the scratch space and the two results (R40, R41, R63). -/
def State.withUnitState (a : ArgRegs) (m : Mem) (c : BitVec 32) (l : Word) (s : State) : State :=
  { s with arg := a, scr := m, resCrc := c, resLen := l }

/-! ### The CRC, most significant bit first -/

/-- One octet of the unreflected CRC-32, polynomial 0x04C11DB7 (spec/93 G1): the octet enters at the top, most significant bit of the
reversed octet first. -/
def crcMsbShift (r : BitVec 32) : BitVec 32 := if r.getLsbD 31 then (r <<< 1) ^^^ 0x04C11DB7 else r <<< 1

/-- `n` shifts to the left. -/
def crcMsbShifts : Nat → BitVec 32 → BitVec 32
  | 0, r => r
  | n + 1, r => crcMsbShifts n (crcMsbShift r)

/-- One octet, its bits reversed, at the top of the register. -/
def crcMsbOctet (r : BitVec 32) (b : Octet) : BitVec 32 :=
  crcMsbShifts 8 (r ^^^ (b.reverse.zeroExtend 32 <<< 24))

/-- The CRC register after a sequence, most significant bit first. -/
def crcMsbRegister (s : List Octet) : BitVec 32 := s.foldl crcMsbOctet 0xFFFFFFFF

end Sys2Proof.Machine
end

