-- ==== Sys2Proof/Certificates/Slice0/Obligations.lean ====
section
/-! DEFINITION. The statements about the FSA for the provers, in the order of OBLIGATIONS.json. A statement about a step names the host access that
stands first in `State.script`; that the host is a script in State is the model's choice (log entry 1). -/

open Sys2Proof Sys2Proof.Machine

/-! ### Command words -/

/-- R91: each row of the opcode map, and a few words that are ILLEGAL by R92. -/
def Obligations.DecodeReadsOpcodeMap : Prop :=
  decode 0x0000000000000001 = .ok .clear ∧ decode 0x0000000000000002 = .ok .plan ∧ decode 0x0000000000000003 = .ok .step ∧
    decode 0x0000000000000004 = .ok .run ∧ decode 0x0000000000000005 = .ok .finish ∧ decode 0x0000000000000010 = .ok .crc32 ∧
    decode 0x0000000000000011 = .ok .oranBuild ∧ decode 0x0000000000000012 = .ok .ecpriBuild ∧
    decode 0x0000000000000013 = .ok .ethBuild ∧ decode 0 = .error .unknownOpcode ∧ decode 0x102 = .error .reservedBits ∧
    decode 0x8000000000000001 = .error .reservedBits ∧ decode 0x14 = .error .unknownOpcode

/-- R93, as arithmetic on the word's number. -/
def Obligations.DecodeFollowsTheProcedure : Prop :=
  ∀ w : Word, decode w =
    if w.toNat / 256 ≠ 0 then .error .reservedBits
    else if w.toNat % 256 = 0x01 then .ok .clear
    else if w.toNat % 256 = 0x02 then .ok .plan
    else if w.toNat % 256 = 0x03 then .ok .step
    else if w.toNat % 256 = 0x04 then .ok .run
    else if w.toNat % 256 = 0x05 then .ok .finish
    else if w.toNat % 256 = 0x10 then .ok .crc32
    else if w.toNat % 256 = 0x11 then .ok .oranBuild
    else if w.toNat % 256 = 0x12 then .ok .ecpriBuild
    else if w.toNat % 256 = 0x13 then .ok .ethBuild
    else .error .unknownOpcode

/-- Decode and encode agree in both directions: a word means a command exactly when it is that command's word, and the legal words of R92 are
exactly the encodings. -/
def Obligations.DecodeInvertsEncode : Prop :=
  (∀ (w : Word) (i : Instr), decode w = .ok i ↔ w = encode i) ∧
    ∀ w : Word, CommandWord.wf w = true ↔ ∃ i : Instr, i.wf = true ∧ w = encode i

/-- R28: a step at a CMD write runs the decoded command on the state whose script has moved on, and CMD reads 0. -/
def Obligations.StepRunsDecodedCommand : Prop :=
  (∀ (s : State) (w : Word) (i : Instr) (es : List HostEvent),
      s.script = .writeReg 0x01 w :: es → decode w = .ok i → step s = exec i { s with script := es }) ∧
    ∀ s : State, s.indexRead 0x01 = 0

/-- R194 with the table of R180: an illegal word, and a sequencer command its phase makes Illegal, enter ERROR with code 10; in ERROR they, and
every sequencer command but CLEAR, change nothing. -/
def Obligations.IllegalCommandsAreFatalOutsideError : Prop :=
  (∀ (s : State) (w : Word) (es : List HostEvent) (e : IllegalWord),
      s.script = .writeReg 0x01 w :: es → decode w = .error e →
        (s.phase ≠ .error → step s = .next { s with script := es, err := .illegalCommand, phase := .error }) ∧
          (s.phase = .error → step s = .next { s with script := es })) ∧
    (∀ (s : State) (i : Instr),
      ((i = .plan ∧ (s.phase = .planned ∨ s.phase = .running ∨ s.phase = .done)) ∨
        (i = .step ∧ (s.phase = .idle ∨ s.phase = .done ∨
          (s.phase = .running ∧ s.plan.totalPackets.toNat ≤ s.packetNo.toNat))) ∨
        (i = .run ∧ (s.phase = .idle ∨ s.phase = .done)) ∨
        (i = .finish ∧ (s.phase = .idle ∨ s.phase = .planned ∨ s.phase = .done ∨
          (s.phase = .running ∧ s.packetNo ≠ s.plan.totalPackets)))) →
      exec i s = .next { s with err := .illegalCommand, phase := .error }) ∧
    ∀ (s : State) (i : Instr), (i = .plan ∨ i = .step ∨ i = .run ∨ i = .finish) → s.phase = .error → exec i s = .next s

/-- R218: where the host presents nothing, the FSA holds its state. That the host is a script in State is the model's choice (log entry 1). -/
def Obligations.NoEventHoldsState : Prop := ∀ s : State, s.script = [] → step s = .next s

/-! ### The register file and the octet accesses -/

/-- R21, R22, R32, R39, R40: after a write to any index but CMD in IDLE, every index reads as before, but a writable register, which reads the
value written: its low 48 bits in the two MAC registers. The second part says which CFG_ register each index writes. -/
def Obligations.RegisterFileReadsBackWrites : Prop :=
  (∀ (s : State) (i : Fin 64) (v : Word) (es : List HostEvent), i ≠ 1 → s.phase = .idle → s.script = .writeReg i v :: es →
    ∃ t, step s = .next t ∧ ∀ j : Fin 64, t.indexRead j =
      if j = i ∧ ((2 ≤ i.val ∧ i.val ≤ 0x0D) ∨ (0x10 ≤ i.val ∧ i.val ≤ 0x1A)) then
        (if i.val = 0x05 ∨ i.val = 0x06 then v &&& 0x0000FFFFFFFFFFFF else v)
      else s.indexRead j) ∧
    ∀ (s : State) (v : Word) (es : List HostEvent) (i : Fin 64) (c : CfgRegs), s.phase = .idle → s.script = .writeReg i v :: es →
      (i, c) ∈ ([(0x02, { s.cfg with lineRate := v }), (0x03, { s.cfg with captureMs := v }), (0x04, { s.cfg with minIfg := v }),
        (0x05, { s.cfg with destMac := BitVec.ofNat 48 v.toNat }), (0x06, { s.cfg with srcMac := BitVec.ofNat 48 v.toNat }),
        (0x07, { s.cfg with maxPkt := v }), (0x08, { s.cfg with scs := v }), (0x09, { s.cfg with maxNrb := v }),
        (0x0A, { s.cfg with nrbPerPkt := v }), (0x0B, { s.cfg with payloadType := v }), (0x0C, { s.cfg with poolLen := v }),
        (0x0D, { s.cfg with rngSeed := v })] : List (Fin 64 × CfgRegs)) →
      step s = .next { s with script := es, cfg := c }

/-- R22, R40: an ARG_ register is writable in every phase, and the write changes nothing else. The second part says which register each index
writes. -/
def Obligations.ArgWritesInEveryPhase : Prop :=
  (∀ (s : State) (i : Fin 64) (v : Word) (es : List HostEvent), 0x10 ≤ i.val → i.val ≤ 0x1A → s.script = .writeReg i v :: es →
    ∃ t, step s = .next t ∧ t = { s with script := es, arg := t.arg } ∧ t.indexRead i = v ∧
      ∀ j : Fin 64, j ≠ i → t.indexRead j = s.indexRead j) ∧
    ∀ (s : State) (v : Word) (es : List HostEvent) (i : Fin 64) (r : ArgRegs), s.script = .writeReg i v :: es →
      (i, r) ∈ ([(0x10, { s.arg with src := v }), (0x11, { s.arg with len := v }), (0x12, { s.arg with dst := v }),
        (0x13, { s.arg with frame := v }), (0x14, { s.arg with subframe := v }), (0x15, { s.arg with slot := v }),
        (0x16, { s.arg with symbol := v }), (0x17, { s.arg with startPrbu := v }), (0x18, { s.arg with numPrbu := v }),
        (0x19, { s.arg with seq := v }), (0x1A, { s.arg with ether := v })] : List (Fin 64 × ArgRegs)) →
      step s = .next { s with script := es, arg := r }

/-- R39 and R68: outside IDLE a write to a CFG_ register or to POOL is dropped and sets LOCKED; in IDLE it takes effect. -/
def Obligations.LockedWritesAreDropped : Prop :=
  (∀ (s : State) (i : Fin 64) (v : Word) (es : List HostEvent), 2 ≤ i.val → i.val ≤ 0x0D → s.script = .writeReg i v :: es →
      (s.phase ≠ .idle → step s = .next { s with script := es, locked := true }) ∧
        (s.phase = .idle → ∃ t, step s = .next t ∧ t = { s with script := es, cfg := t.cfg } ∧
          t.indexRead i = if i.val = 0x05 ∨ i.val = 0x06 then v &&& 0x0000FFFFFFFFFFFF else v)) ∧
    ∀ (s : State) (a : Nat) (b : Octet) (es : List HostEvent), a < s.params.poolCap → s.script = .writeOctet .pool a b :: es →
      (s.phase ≠ .idle → step s = .next { s with script := es, locked := true }) ∧
        (s.phase = .idle → ∃ t, step s = .next t ∧ t = { s with script := es, pool := t.pool } ∧
          ∀ x, Mem.read t.pool x = if x = a then some b else Mem.read s.pool x)

/-- R21 and R72: a write to a read-only register, to an index R22 does not list, to OUT, or at an address outside POOL or SCR does nothing (the
last by the reading of log entry 6). -/
def Obligations.OtherWritesDoNothing : Prop :=
  (∀ (s : State) (i : Fin 64) (v : Word) (es : List HostEvent),
      (i.val = 0x00 ∨ i.val = 0x0E ∨ i.val = 0x0F ∨ 0x1B ≤ i.val) → s.script = .writeReg i v :: es →
      step s = .next { s with script := es }) ∧
    ∀ (s : State) (sp : OctetSpace) (a : Nat) (b : Octet) (es : List HostEvent), (sp = .out ∨ s.cap sp ≤ a) →
      s.script = .writeOctet sp a b :: es → step s = .next { s with script := es }

/-- R72: a host read changes no field of the FSA; the host receives the register, or the octet the space holds. An unlisted index reads 0 (R21).
The last part says what each index reads (R22, R28, R32, R41 to R46); STATUS is StatusWordHasFourFields. -/
def Obligations.ReadsHaveNoSideEffect : Prop :=
  (∀ (s : State) (i : Fin 64) (es : List HostEvent), s.script = .readReg i :: es →
      step s = .next { s with script := es, answers := .reg (s.indexRead i) :: s.answers } ∧
        ((i.val = 0x0E ∨ i.val = 0x0F ∨ (0x1B ≤ i.val ∧ i.val ≤ 0x1F) ∨ (0x25 ≤ i.val ∧ i.val ≤ 0x2F) ∨ 0x3D ≤ i.val) →
          s.indexRead i = 0)) ∧
    (∀ (s t : State) (sp : OctetSpace) (a : Nat) (es : List HostEvent), s.script = .readOctet sp a :: es → step s = .next t →
      ∃ b, t = { s with script := es, answers := .octet b :: s.answers } ∧ Mem.read (s.mem sp) a = some b) ∧
    ∀ s : State,
      (s.indexRead 0x01 = 0 ∧ s.indexRead 0x02 = s.cfg.lineRate ∧ s.indexRead 0x03 = s.cfg.captureMs ∧ s.indexRead 0x04 = s.cfg.minIfg ∧
        (s.indexRead 0x05).toNat = s.cfg.destMac.toNat ∧ (s.indexRead 0x06).toNat = s.cfg.srcMac.toNat ∧
        s.indexRead 0x07 = s.cfg.maxPkt ∧ s.indexRead 0x08 = s.cfg.scs ∧ s.indexRead 0x09 = s.cfg.maxNrb ∧
        s.indexRead 0x0A = s.cfg.nrbPerPkt ∧ s.indexRead 0x0B = s.cfg.payloadType ∧ s.indexRead 0x0C = s.cfg.poolLen ∧
        s.indexRead 0x0D = s.cfg.rngSeed) ∧
      (s.indexRead 0x10 = s.arg.src ∧ s.indexRead 0x11 = s.arg.len ∧ s.indexRead 0x12 = s.arg.dst ∧ s.indexRead 0x13 = s.arg.frame ∧
        s.indexRead 0x14 = s.arg.subframe ∧ s.indexRead 0x15 = s.arg.slot ∧ s.indexRead 0x16 = s.arg.symbol ∧
        s.indexRead 0x17 = s.arg.startPrbu ∧ s.indexRead 0x18 = s.arg.numPrbu ∧ s.indexRead 0x19 = s.arg.seq ∧
        s.indexRead 0x1A = s.arg.ether) ∧
      ((s.indexRead 0x20).toNat = s.resCrc.toNat ∧ s.indexRead 0x21 = s.resLen ∧ s.indexRead 0x22 = s.resTrailIfg ∧
        (s.indexRead 0x23).toNat = s.emitted.toNat % 2 ^ 64 ∧ s.indexRead 0x24 = s.packetNo) ∧
      (s.indexRead 0x30 = s.plan.totalBytes ∧ s.indexRead 0x31 = s.plan.framesRadio ∧ s.indexRead 0x32 = s.plan.slotsPerSf ∧
        s.indexRead 0x33 = s.plan.pktsPerSymbol ∧ s.indexRead 0x34 = s.plan.pktsPerSlot ∧
        s.indexRead 0x35 = s.plan.pktsPerSubframe ∧ s.indexRead 0x36 = s.plan.pktsPerFrame ∧
        s.indexRead 0x37 = s.plan.totalPackets ∧ s.indexRead 0x38 = s.plan.iqPerPkt ∧ s.indexRead 0x39 = s.plan.maxNrb ∧
        s.indexRead 0x3A = s.plan.nrbPerPkt ∧ s.indexRead 0x3B = s.plan.poolLen ∧ s.indexRead 0x3C = s.plan.frameLen)

/-- R23 to R27 and R200: STATUS is PHASE + ERR·2^8 + LERR·2^16 + LOCKED·2^24 with the codes of R24 and R200, so that every other bit is 0. The last
part gives the number of each code. -/
def Obligations.StatusWordHasFourFields : Prop :=
  (∀ s : State, (s.indexRead 0x00).toNat =
      s.phase.code.toNat + s.err.code.toNat * 2 ^ 8 + s.lerr.code.toNat * 2 ^ 16 + (if s.locked then 1 else 0) * 2 ^ 24) ∧
    (∀ s : State, (s.indexRead 0x00).toNat % 8 ≤ 4 ∧ (s.indexRead 0x00).toNat / 2 ^ 8 % 2 ^ 8 ≤ 11 ∧
      (s.indexRead 0x00).toNat / 2 ^ 16 % 2 ^ 8 ≤ 11 ∧ (s.indexRead 0x00).toNat / 8 % 32 = 0 ∧
      (s.indexRead 0x00).toNat < 2 ^ 25) ∧
    (∀ s : State,
      ((s.indexRead 0x00).toNat % 8 = 0 ↔ s.phase = .idle) ∧ ((s.indexRead 0x00).toNat % 8 = 1 ↔ s.phase = .planned) ∧
        ((s.indexRead 0x00).toNat % 8 = 2 ↔ s.phase = .running) ∧ ((s.indexRead 0x00).toNat % 8 = 3 ↔ s.phase = .done) ∧
        ((s.indexRead 0x00).toNat % 8 = 4 ↔ s.phase = .error)) ∧
    ∀ (s : State) (c : ErrCode) (n : Nat),
      (c, n) ∈ [(ErrCode.noError, 0), (.configReadFailure, 1), (.configParseError, 2), (.iqSourceFailure, 3), (.planInfeasible, 4),
        (.oranFieldOverflow, 5), (.ecpriPayloadTooLarge, 6), (.ethernetFrameTooLarge, 7), (.invalidPayloadType, 8), (.crcInputEmpty, 9),
        (.illegalCommand, 10), (.resourceExceeded, 11)] →
      (s.err = c ↔ (s.indexRead 0x00).toNat / 2 ^ 8 % 2 ^ 8 = n) ∧ (s.lerr = c ↔ (s.indexRead 0x00).toNat / 2 ^ 16 % 2 ^ 8 = n)

/-- R60, R64, R74: an octet written to SCR in any phase is what that address then reads; every other octet and everything else is as before. An
octet that is read in POOL or SCR is the one the space holds. -/
def Obligations.ScratchOctetsReadBack : Prop :=
  (∀ (s : State) (a : Nat) (b : Octet) (es : List HostEvent), a < s.params.scrCap → s.script = .writeOctet .scr a b :: es →
      ∃ t, step s = .next t ∧ t = { s with script := es, scr := t.scr } ∧
        ∀ x, t.hostOctet .scr x = if x = a then .ok b else s.hostOctet .scr x) ∧
    ∀ (s : State) (sp : OctetSpace) (a : Nat) (b : Octet) (es : List HostEvent), sp ≠ .out → a < s.cap sp →
      Mem.read (s.mem sp) a = some b → s.script = .readOctet sp a :: es →
        step s = .next { s with script := es, answers := .octet b :: s.answers }

/-- R67: a host read of OUT returns the stream octet below min(EMITTED, OUT_CAP) in RUNNING and DONE, and in every other case it is a read of an
unspecified octet, which faults in the model. -/
def Obligations.OutIsReadableInItsWindow : Prop :=
  ∀ (s : State) (a : Nat) (es : List HostEvent), s.script = .readOctet .out a :: es →
    (((s.phase = .running ∨ s.phase = .done) ∧ a < s.emitted.toNat ∧ a < s.params.outCap) →
      ∀ b, Mem.read s.out a = some b → step s = .next { s with script := es, answers := .octet b :: s.answers }) ∧
    (¬((s.phase = .running ∨ s.phase = .done) ∧ a < s.emitted.toNat ∧ a < s.params.outCap) →
      step s = .fault .unspecifiedOutOctet)

/-- R61, R64: the accesses on which the model stops. That a read of POOL or SCR at an address outside the space is a read of an unwritten octet
is the reading of log entry 6. -/
def Obligations.UnservedAccessesStop : Prop :=
  (∀ (s : State) (i : Fin 64) (o n : Nat) (es : List HostEvent), s.script = .partialReg i o n :: es →
      step s = .refused .partialRegisterAccess) ∧
    ∀ (s : State) (sp : OctetSpace) (a : Nat) (es : List HostEvent), sp ≠ .out → (Mem.read (s.mem sp) a = none ∨ s.cap sp ≤ a) →
      s.script = .readOctet sp a :: es → step s = .fault .unwrittenOctet

/-! ### Reset -/

/-- R230: hardware reset, in any state, completes: every index reads 0, the phase is IDLE, the counters are 0, every octet is unwritten. -/
def Obligations.HardwareResetZeroesEverything : Prop :=
  ∀ (s : State) (es : List HostEvent), s.script = .hardwareReset :: es →
    ∃ t, step s = .next t ∧ (∀ i : Fin 64, t.indexRead i = 0) ∧ t.phase = .idle ∧ t.err = .noError ∧ t.lerr = .noError ∧
      t.locked = false ∧ t.packetNo = 0 ∧ t.emitted = 0 ∧
      (t.ids.frameId = 0 ∧ t.ids.subframeId = 0 ∧ t.ids.slotId = 0 ∧ t.ids.symbolId = 0 ∧ t.ids.startPrbu = 0 ∧
        t.ids.ecpriSeqId = 0) ∧
      ∀ a, Mem.read t.pool a = none ∧ Mem.read t.scr a = none ∧ Mem.read t.out a = none

/-- R50: the state after reset. -/
def Obligations.ResetStateReadsZero : Prop :=
  (∀ i : Fin 64, State.reset.indexRead i = 0) ∧ State.reset.phase = .idle ∧ State.reset.err = .noError ∧
    State.reset.lerr = .noError ∧ State.reset.locked = false ∧ State.reset.packetNo = 0 ∧ State.reset.emitted = 0 ∧
    (State.reset.ids.frameId = 0 ∧ State.reset.ids.subframeId = 0 ∧ State.reset.ids.slotId = 0 ∧ State.reset.ids.symbolId = 0 ∧
      State.reset.ids.startPrbu = 0 ∧ State.reset.ids.ecpriSeqId = 0) ∧
    (∀ a, Mem.read State.reset.pool a = none ∧ Mem.read State.reset.scr a = none ∧ Mem.read State.reset.out a = none) ∧
    exec .plan State.reset = .next { State.reset with err := .invalidPayloadType, phase := .error }

/-! ### The CRC32 engine -/

/-- R124: the check value. -/
def Obligations.CrcCheckValue : Prop :=
  crc32 [0x31, 0x32, 0x33, 0x34, 0x35, 0x36, 0x37, 0x38, 0x39] = 0xCBF43926

/-- R124 with spec/93 G1 (general knowledge, not the source's, log entry 12): the reflected engine of R120 is the bit reversal of the unreflected CRC-32 whose
polynomial is 0x04C11DB7. -/
def Obligations.CrcIsReversedMsbFirstCrc : Prop :=
  ∀ s : List Octet, crc32 s = (crcMsbRegister s).reverse ^^^ 0xFFFFFFFF

/-- R123: the CRC32 command on a written source range inside SCR: RES_CRC gets the CRC of its octets, LERR gets 0, nothing else changes. -/
def Obligations.CrcCommandResult : Prop :=
  ∀ (s : State) (bs : List Octet), bs.length = s.arg.len.toNat → 1 ≤ s.arg.len.toNat →
    s.arg.src.toNat + s.arg.len.toNat ≤ s.params.scrCap →
    (∀ k, k < s.arg.len.toNat → Mem.read s.scr (s.arg.src.toNat + k) = bs[k]?) →
    exec .crc32 s = .next { s with resCrc := crc32 bs, lerr := .noError }

/-- R123: the two errors of the CRC32 command, in their order; only LERR changes. -/
def Obligations.CrcCommandErrors : Prop :=
  (∀ s : State, s.arg.len.toNat = 0 → exec .crc32 s = .next { s with lerr := .crcInputEmpty }) ∧
    ∀ s : State, 1 ≤ s.arg.len.toNat → s.params.scrCap < s.arg.src.toNat + s.arg.len.toNat →
      exec .crc32 s = .next { s with lerr := .resourceExceeded }

/-! ### The builder commands -/

/-- R96, R130 to R133: ORAN_BUILD on a written source range, fields in range, and a destination range inside SCR. The packet is written from
ARG_DST on, RES_LEN gets its length, LERR gets 0; every other octet of SCR and everything else is unchanged. -/
def Obligations.OranBuildResult : Prop :=
  ∀ (s : State) (iq : List Octet), iq.length = s.arg.len.toNat → s.arg.src.toNat + s.arg.len.toNat ≤ s.params.scrCap →
    (∀ k, k < s.arg.len.toNat → Mem.read s.scr (s.arg.src.toNat + k) = iq[k]?) →
    s.arg.frame.toNat ≤ 255 → s.arg.subframe.toNat ≤ 15 → s.arg.slot.toNat ≤ 63 → s.arg.symbol.toNat ≤ 63 →
    s.arg.startPrbu.toNat ≤ 1023 → (s.arg.numPrbu.toNat ≤ 255 ∨ s.arg.numPrbu.toNat = 273) →
    s.arg.dst.toNat + (8 + s.arg.len.toNat) ≤ s.params.scrCap →
    ∃ t, exec .oranBuild s = .next t ∧
      t = { s with scr := t.scr, resLen := BitVec.ofNat 64 (8 + s.arg.len.toNat), lerr := .noError } ∧
      ∀ x, Mem.read t.scr x =
        if s.arg.dst.toNat ≤ x ∧ x < s.arg.dst.toNat + (8 + s.arg.len.toNat) then
          ([0x00, BitVec.ofNat 8 s.arg.frame.toNat,
            BitVec.ofNat 8 (s.arg.subframe.toNat * 16 + s.arg.slot.toNat / 4),
            BitVec.ofNat 8 (s.arg.slot.toNat % 4 * 64 + s.arg.symbol.toNat), 0xFF,
            BitVec.ofNat 8 (0xF0 + s.arg.startPrbu.toNat / 256), BitVec.ofNat 8 (s.arg.startPrbu.toNat % 256),
            BitVec.ofNat 8 (if s.arg.numPrbu.toNat = 273 then 0 else s.arg.numPrbu.toNat)] ++ iq)[x - s.arg.dst.toNat]?
        else Mem.read s.scr x

/-- R97, R140 to R142: ECPRI_BUILD on a written source range, a u16 `seq_id`, a payload of at most 0xFFFF octets, and a destination range inside
SCR. -/
def Obligations.EcpriBuildResult : Prop :=
  ∀ (s : State) (pl : List Octet), pl.length = s.arg.len.toNat → s.arg.src.toNat + s.arg.len.toNat ≤ s.params.scrCap →
    (∀ k, k < s.arg.len.toNat → Mem.read s.scr (s.arg.src.toNat + k) = pl[k]?) →
    s.arg.seq.toNat ≤ 0xFFFF → s.arg.len.toNat ≤ 0xFFFF → s.arg.dst.toNat + (8 + s.arg.len.toNat) ≤ s.params.scrCap →
    ∃ t, exec .ecpriBuild s = .next t ∧
      t = { s with scr := t.scr, resLen := BitVec.ofNat 64 (8 + s.arg.len.toNat), lerr := .noError } ∧
      ∀ x, Mem.read t.scr x =
        if s.arg.dst.toNat ≤ x ∧ x < s.arg.dst.toNat + (8 + s.arg.len.toNat) then
          ([0x00, 0x00, BitVec.ofNat 8 (s.arg.len.toNat / 256), BitVec.ofNat 8 (s.arg.len.toNat % 256), 0x00, 0x00,
            BitVec.ofNat 8 (s.arg.seq.toNat / 256), BitVec.ofNat 8 (s.arg.seq.toNat % 256)] ++ pl)[x - s.arg.dst.toNat]?
        else Mem.read s.scr x

/-- R98 to R100, R150 to R155: ETH_BUILD on a written source range, operands in range, a frame within CFG_MAX_PKT and a destination range inside
SCR. The frame's length L is 26 + len + ifg rounded up to a multiple of 4. RES_CRC gets the CRC of the frame's octets 8 to 21 + len. The octets of
the MACs D and S and of the FCS C go out most significant first (R69, R121). -/
def Obligations.EthBuildResult : Prop :=
  ∀ (s : State) (pl body : List Octet) (L D S C : Nat), pl.length = s.arg.len.toNat →
    s.arg.src.toNat + s.arg.len.toNat ≤ s.params.scrCap →
    (∀ k, k < s.arg.len.toNat → Mem.read s.scr (s.arg.src.toNat + k) = pl[k]?) →
    s.arg.ether.toNat ≤ 0xFFFF → s.cfg.minIfg.toNat ≤ 255 →
    L = (26 + s.arg.len.toNat + s.cfg.minIfg.toNat + 3) / 4 * 4 → L ≤ s.cfg.maxPkt.toNat →
    s.arg.dst.toNat + L ≤ s.params.scrCap →
    D = s.cfg.destMac.toNat → S = s.cfg.srcMac.toNat → C = (crc32 body).toNat →
    body = [BitVec.ofNat 8 (D / 2 ^ 40), BitVec.ofNat 8 (D / 2 ^ 32), BitVec.ofNat 8 (D / 2 ^ 24), BitVec.ofNat 8 (D / 2 ^ 16),
        BitVec.ofNat 8 (D / 2 ^ 8), BitVec.ofNat 8 D] ++
      [BitVec.ofNat 8 (S / 2 ^ 40), BitVec.ofNat 8 (S / 2 ^ 32), BitVec.ofNat 8 (S / 2 ^ 24), BitVec.ofNat 8 (S / 2 ^ 16),
        BitVec.ofNat 8 (S / 2 ^ 8), BitVec.ofNat 8 S] ++
      [BitVec.ofNat 8 (s.arg.ether.toNat / 256), BitVec.ofNat 8 (s.arg.ether.toNat % 256)] ++ pl →
    ∃ t, exec .ethBuild s = .next t ∧
      t = { s with scr := t.scr, resLen := BitVec.ofNat 64 L, resCrc := crc32 body, lerr := .noError } ∧
      ∀ x, Mem.read t.scr x =
        if s.arg.dst.toNat ≤ x ∧ x < s.arg.dst.toNat + L then
          ([0xFB, 0x55, 0x55, 0x55, 0x55, 0x55, 0x55, 0xD5] ++ body ++
            [BitVec.ofNat 8 (C / 2 ^ 24), BitVec.ofNat 8 (C / 2 ^ 16), BitVec.ofNat 8 (C / 2 ^ 8), BitVec.ofNat 8 C] ++
            List.replicate (L - 26 - s.arg.len.toNat) 0x07)[x - s.arg.dst.toNat]?
        else Mem.read s.scr x

/-- R133, R142, R155, R206: the unit errors of the builder commands in the order of their checks, on a written source range where the read of the
source comes first; only LERR changes. -/
def Obligations.BuilderErrorsInOrder : Prop :=
  (∀ (s : State) (i : Instr), (i = .oranBuild ∨ i = .ecpriBuild ∨ i = .ethBuild) →
      s.params.scrCap < s.arg.src.toNat + s.arg.len.toNat → exec i s = .next { s with lerr := .resourceExceeded }) ∧
    (∀ s : State, s.arg.src.toNat + s.arg.len.toNat ≤ s.params.scrCap → 0xFFFF < s.arg.seq.toNat →
      exec .ecpriBuild s = .next { s with lerr := .illegalCommand }) ∧
    (∀ s : State, s.arg.src.toNat + s.arg.len.toNat ≤ s.params.scrCap →
      (0xFFFF < s.arg.ether.toNat ∨ 255 < s.cfg.minIfg.toNat) → exec .ethBuild s = .next { s with lerr := .illegalCommand }) ∧
    ∀ s : State, s.arg.src.toNat + s.arg.len.toNat ≤ s.params.scrCap →
      (∀ k, k < s.arg.len.toNat → (Mem.read s.scr (s.arg.src.toNat + k)).isSome) →
      ((255 < s.arg.frame.toNat ∨ 15 < s.arg.subframe.toNat ∨ 63 < s.arg.slot.toNat ∨ 63 < s.arg.symbol.toNat ∨
          1023 < s.arg.startPrbu.toNat ∨ (255 < s.arg.numPrbu.toNat ∧ s.arg.numPrbu.toNat ≠ 273)) →
        exec .oranBuild s = .next { s with lerr := .oranFieldOverflow }) ∧
      (s.arg.frame.toNat ≤ 255 → s.arg.subframe.toNat ≤ 15 → s.arg.slot.toNat ≤ 63 → s.arg.symbol.toNat ≤ 63 →
        s.arg.startPrbu.toNat ≤ 1023 → (s.arg.numPrbu.toNat ≤ 255 ∨ s.arg.numPrbu.toNat = 273) →
        s.params.scrCap < s.arg.dst.toNat + (8 + s.arg.len.toNat) →
        exec .oranBuild s = .next { s with lerr := .resourceExceeded }) ∧
      (s.arg.seq.toNat ≤ 0xFFFF → 0xFFFF < s.arg.len.toNat →
        exec .ecpriBuild s = .next { s with lerr := .ecpriPayloadTooLarge }) ∧
      (s.arg.seq.toNat ≤ 0xFFFF → s.arg.len.toNat ≤ 0xFFFF → s.params.scrCap < s.arg.dst.toNat + (8 + s.arg.len.toNat) →
        exec .ecpriBuild s = .next { s with lerr := .resourceExceeded }) ∧
      (s.arg.ether.toNat ≤ 0xFFFF → s.cfg.minIfg.toNat ≤ 255 →
        s.cfg.maxPkt.toNat < (26 + s.arg.len.toNat + s.cfg.minIfg.toNat + 3) / 4 * 4 →
        exec .ethBuild s = .next { s with lerr := .ethernetFrameTooLarge }) ∧
      (s.arg.ether.toNat ≤ 0xFFFF → s.cfg.minIfg.toNat ≤ 255 →
        (26 + s.arg.len.toNat + s.cfg.minIfg.toNat + 3) / 4 * 4 ≤ s.cfg.maxPkt.toNat →
        s.params.scrCap < s.arg.dst.toNat + (26 + s.arg.len.toNat + s.cfg.minIfg.toNat + 3) / 4 * 4 →
        exec .ethBuild s = .next { s with lerr := .resourceExceeded })

/-- R123, R133, R142, R155 with R64: a unit command whose checks before the read pass faults on an unwritten octet of its source range. -/
def Obligations.UnitCommandsFaultOnUnwrittenSource : Prop :=
  ∀ (s : State) (k : Nat), s.arg.src.toNat + s.arg.len.toNat ≤ s.params.scrCap → k < s.arg.len.toNat →
    Mem.read s.scr (s.arg.src.toNat + k) = none →
    exec .crc32 s = .fault .unwrittenOctet ∧ exec .oranBuild s = .fault .unwrittenOctet ∧
      (s.arg.seq.toNat ≤ 0xFFFF → exec .ecpriBuild s = .fault .unwrittenOctet) ∧
      (s.arg.ether.toNat ≤ 0xFFFF → s.cfg.minIfg.toNat ≤ 255 → exec .ethBuild s = .fault .unwrittenOctet)

/-- R134: the fields read back from the header octets are those supplied, 0 and 273 PRBs both as 273; a successful PLAN gives STEP no 0 to pass. -/
def Obligations.OranHeaderRoundTrip : Prop :=
  (∀ (f : OranFields) (iq h : List Octet), oranPacket f iq = .ok h →
    (h.getD 1 0).toNat = f.frameId ∧ (h.getD 2 0).toNat >>> 4 = f.subframeId ∧
      (((h.getD 2 0).toNat &&& 0x0F) <<< 2) ||| ((h.getD 3 0).toNat >>> 6) = f.slotId ∧
      (h.getD 3 0).toNat &&& 0x3F = f.symbolId ∧
      (((h.getD 5 0).toNat &&& 0x03) <<< 8) ||| (h.getD 6 0).toNat = f.startPrbu ∧
      (if (h.getD 7 0).toNat = 0 then 273 else (h.getD 7 0).toNat) = (if f.numPrbu = 0 then 273 else f.numPrbu)) ∧
    ∀ s : State, s.planOk = true → s.oranFields.numPrbu ≠ 0

/-- R143: the eCPRI length field is the payload length, the header's 8 octets excluded. -/
def Obligations.EcpriLengthField : Prop :=
  ∀ (q : Nat) (pl p : List Octet), ecpriPacket q pl = .ok p →
    ((p.getD 2 0).toNat <<< 8) ||| (p.getD 3 0).toNat = pl.length ∧ pl.length = p.length - 8

/-- R98, R125, R152, R154, R156: the parts of every frame the Ethernet builder answers, its length, its alignment, its limit, and that its FCS is
the one computed over octets 8 to 21 + P; and that it answers a frame whenever that length is within the limit. -/
def Obligations.EthFrameParts : Prop :=
  (∀ (d s : BitVec 48) (e2 pl f : List Octet) (ifg maxp D S C : Nat), e2.length = 2 → ethFrame d s e2 pl ifg maxp = .ok f →
      D = d.toNat → S = s.toNat → C = (crc32 ((f.drop 8).take (14 + pl.length))).toNat →
      f.length = (26 + pl.length + ifg + 3) / 4 * 4 ∧ f.length % 4 = 0 ∧ f.length ≤ maxp ∧
        f.take 8 = [0xFB, 0x55, 0x55, 0x55, 0x55, 0x55, 0x55, 0xD5] ∧ 
        (f.drop 8).take 6 = [BitVec.ofNat 8 (D / 2 ^ 40), BitVec.ofNat 8 (D / 2 ^ 32), BitVec.ofNat 8 (D / 2 ^ 24),
          BitVec.ofNat 8 (D / 2 ^ 16), BitVec.ofNat 8 (D / 2 ^ 8), BitVec.ofNat 8 D] ∧
        (f.drop 14).take 6 = [BitVec.ofNat 8 (S / 2 ^ 40), BitVec.ofNat 8 (S / 2 ^ 32), BitVec.ofNat 8 (S / 2 ^ 24),
          BitVec.ofNat 8 (S / 2 ^ 16), BitVec.ofNat 8 (S / 2 ^ 8), BitVec.ofNat 8 S] ∧
        (f.drop 20).take 2 = e2 ∧ (f.drop 22).take pl.length = pl ∧
        (f.drop (22 + pl.length)).take 4 =
          [BitVec.ofNat 8 (C / 2 ^ 24), BitVec.ofNat 8 (C / 2 ^ 16), BitVec.ofNat 8 (C / 2 ^ 8), BitVec.ofNat 8 C] ∧
        f.drop (26 + pl.length) = List.replicate (f.length - (26 + pl.length)) 0x07) ∧
    ∀ (d s : BitVec 48) (e2 pl : List Octet) (ifg maxp : Nat), e2.length = 2 → (26 + pl.length + ifg + 3) / 4 * 4 ≤ maxp →
      ∃ f, ethFrame d s e2 pl ifg maxp = .ok f

/-- R207: a unit command that ends with an error has changed LERR and nothing else. -/
def Obligations.UnitErrorChangesOnlyLerr : Prop :=
  ∀ (i : Instr) (s t : State), i.isUnit = true → exec i s = .next t → t.lerr ≠ .noError → t = { s with lerr := t.lerr }

/-- R247: a unit command, in any phase, changes at most SCR, RES_CRC, RES_LEN and LERR, and each only as its own rule says: CRC32 leaves SCR and
RES_LEN, ORAN_BUILD and ECPRI_BUILD leave RES_CRC. -/
def Obligations.UnitCommandsLeaveRunUnchanged : Prop :=
  ∀ (i : Instr) (s t : State), i.isUnit = true → exec i s = .next t →
    t = { s with scr := t.scr, resCrc := t.resCrc, resLen := t.resLen, lerr := t.lerr } ∧
      (i = .crc32 → t.scr = s.scr ∧ t.resLen = s.resLen) ∧ ((i = .oranBuild ∨ i = .ecpriBuild) → t.resCrc = s.resCrc)

/-! ### The sequencer commands -/

/-- R193: CLEAR, in every phase. The OUT octets are then unreadable; in IDLE, in a state with the invariant, only LERR and LOCKED can change. -/
def Obligations.ClearResult : Prop :=
  ∀ s : State,
    (∃ t, exec .clear s = .next t ∧ ∀ a, t.hostOctet .out a = .error .unspecifiedOutOctet) ∧
    (s.invariant = true → s.phase = .idle → exec .clear s = .next { s with lerr := .noError, locked := false }) ∧
    exec .clear s = .next { s with
      phase := .idle, err := .noError, lerr := .noError, locked := false, packetNo := 0, emitted := 0,
      ids := { frameId := 0, subframeId := 0, slotId := 0, symbolId := 0, startPrbu := 0, ecpriSeqId := 0 },
      resTrailIfg := 0,
      plan := { totalBytes := 0, framesRadio := 0, slotsPerSf := 0, pktsPerSymbol := 0, pktsPerSlot := 0, pktsPerSubframe := 0,
                pktsPerFrame := 0, totalPackets := 0, iqPerPkt := 0, maxNrb := 0, nrbPerPkt := 0, poolLen := 0, frameLen := 0 } }

/-- R160 to R166, R168, R171, R172: PLAN in IDLE on a configuration that passes every check of R167 stores the derived plan, zeroes the run state
and enters PLANNED. M and N are the normalized PRB counts. -/
def Obligations.PlanStoresDerivedPlan : Prop :=
  ∀ (s : State) (M N T : Nat), s.phase = .idle →
    M = (if s.cfg.maxNrb = 0 then 273 else s.cfg.maxNrb.toNat) →
    N = (if s.cfg.nrbPerPkt = 0 then 273 else s.cfg.nrbPerPkt.toNat) →
    T = (M + N - 1) / N * 14 * (s.cfg.scs.toNat / 15) * 10 * (s.cfg.captureMs.toNat / 10) →
    (s.cfg.payloadType = 1 ∨ s.cfg.payloadType = 2) → s.cfg.lineRate.toNat ≤ 255 → s.cfg.captureMs.toNat ≤ 255 →
    s.cfg.minIfg.toNat ≤ 255 → s.cfg.maxNrb.toNat ≤ 273 → s.cfg.nrbPerPkt.toNat ≤ 273 →
    s.cfg.scs.toNat ≠ 0 → s.cfg.scs.toNat % 15 = 0 → s.cfg.captureMs.toNat ≠ 0 → s.cfg.captureMs.toNat % 10 = 0 → N ≤ M →
    T * (28 * N) < 2 ^ 64 →
    (s.cfg.payloadType = 1 → s.cfg.poolLen.toNat ≠ 0 ∧ s.cfg.poolLen.toNat % 2 = 0 ∧ s.cfg.poolLen.toNat ≤ s.params.poolCap) →
    s.cfg.lineRate.toNat * s.cfg.captureMs.toNat * 125000 ≤ s.params.outCap →
    exec .plan s = .next { s with
      plan :=
        { totalBytes := BitVec.ofNat 64 (s.cfg.lineRate.toNat * s.cfg.captureMs.toNat * 125000)
          framesRadio := BitVec.ofNat 64 (s.cfg.captureMs.toNat / 10)
          slotsPerSf := BitVec.ofNat 64 (s.cfg.scs.toNat / 15)
          pktsPerSymbol := BitVec.ofNat 64 ((M + N - 1) / N)
          pktsPerSlot := BitVec.ofNat 64 ((M + N - 1) / N * 14)
          pktsPerSubframe := BitVec.ofNat 64 ((M + N - 1) / N * 14 * (s.cfg.scs.toNat / 15))
          pktsPerFrame := BitVec.ofNat 64 ((M + N - 1) / N * 14 * (s.cfg.scs.toNat / 15) * 10)
          totalPackets := BitVec.ofNat 64 T
          iqPerPkt := BitVec.ofNat 64 (28 * N)
          maxNrb := BitVec.ofNat 64 M
          nrbPerPkt := BitVec.ofNat 64 N
          poolLen := if s.cfg.payloadType = 1 then s.cfg.poolLen else BitVec.ofNat 64 (T * (28 * N))
          frameLen := BitVec.ofNat 64 ((26 + (16 + 28 * N) + s.cfg.minIfg.toNat + 3) / 4 * 4) }
      packetNo := 0, emitted := 0, resTrailIfg := 0,
      ids := { frameId := 0, subframeId := 0, slotId := 0, symbolId := 0, startPrbu := 0, ecpriSeqId := 0 },
      phase := .planned }

/-- R167 to R170, R204, R205: the checks of PLAN in their order. The first that fails is the code reported; ERR and PHASE alone change. Where none
fails, PLAN enters PLANNED. -/
def Obligations.PlanReportsFirstFailedCheck : Prop :=
  ∀ (s : State) (M N P T B : Nat) (code : Option ErrCode), s.phase = .idle →
    M = (if s.cfg.maxNrb = 0 then 273 else s.cfg.maxNrb.toNat) →
    N = (if s.cfg.nrbPerPkt = 0 then 273 else s.cfg.nrbPerPkt.toNat) →
    P = (M + N - 1) / N * 14 * (s.cfg.scs.toNat / 15) → T = P * 10 * (s.cfg.captureMs.toNat / 10) →
    B = s.cfg.lineRate.toNat * s.cfg.captureMs.toNat * 125000 →
    code =
      (if s.cfg.payloadType ≠ 1 ∧ s.cfg.payloadType ≠ 2 then some .invalidPayloadType
       else if 255 < s.cfg.lineRate.toNat ∨ 255 < s.cfg.captureMs.toNat ∨ 255 < s.cfg.minIfg.toNat ∨
           273 < s.cfg.maxNrb.toNat ∨ 273 < s.cfg.nrbPerPkt.toNat then some .planInfeasible
       else if s.cfg.scs.toNat = 0 ∨ s.cfg.scs.toNat % 15 ≠ 0 then some .planInfeasible
       else if s.cfg.captureMs.toNat = 0 ∨ s.cfg.captureMs.toNat % 10 ≠ 0 then some .planInfeasible
       else if M < N then some .planInfeasible
       else if 2 ^ 64 ≤ B ∨ 2 ^ 64 ≤ P ∨ 2 ^ 64 ≤ P * 10 ∨ 2 ^ 64 ≤ T ∨ 2 ^ 64 ≤ T * (28 * N) then some .planInfeasible
       else if s.cfg.payloadType = 1 ∧ (s.cfg.poolLen.toNat = 0 ∨ s.cfg.poolLen.toNat % 2 = 1 ∨
           s.params.poolCap < s.cfg.poolLen.toNat) then some .iqSourceFailure
       else if s.params.outCap < B then some .resourceExceeded
       else none) →
    (∀ c, code = some c → exec .plan s = .next { s with err := c, phase := .error }) ∧
      (code = none → ∃ t, exec .plan s = .next t ∧ t.phase = .planned)

/-- R183, R184, R189, R190 with R66, R98 to R100: STEP emits the frame of packet `packet_no`. `d` is the counters after the advance, `iq` the
packet's slice of the payload, `fr` the frame, F its length. Stated for PLANNED, and for RUNNING with packets left, wherever the payload is readable
and the fields and the frame are within their limits. OUT changes at the stream positions EMITTED to EMITTED + F − 1 that lie below OUT_CAP, and nowhere
else. The EtherType 0xAEFE is log entry 11. -/
def Obligations.StepEmitsFrame : Prop :=
  ∀ (s : State) (d : IdCounters) (iq body fr : List Octet) (I F D S E C : Nat),
    (s.phase = .planned ∨ (s.phase = .running ∧ s.packetNo.toNat < s.plan.totalPackets.toNat)) →
    d = (if s.packetNo.toNat = 0 then s.ids else advanceIds s.plan s.packetNo.toNat s.ids) →
    I = s.plan.iqPerPkt.toNat → iq.length = I →
    (s.cfg.payloadType = 1 → ∀ k, k < I →
      (s.packetNo.toNat * I + k) % s.plan.poolLen.toNat < s.params.poolCap ∧
        Mem.read s.pool ((s.packetNo.toNat * I + k) % s.plan.poolLen.toNat) = iq[k]?) →
    (s.cfg.payloadType ≠ 1 → ∀ k, k < I →
      some (Config.rngOctet s.cfg.rngSeed (BitVec.ofNat 64 (s.packetNo.toNat * I + k))) = iq[k]?) →
    d.slotId.toNat ≤ 63 → d.startPrbu.toNat ≤ 1023 → (s.plan.nrbPerPkt.toNat ≤ 255 ∨ s.plan.nrbPerPkt.toNat = 273) →
    8 + I ≤ 0xFFFF → F = (42 + I + s.cfg.minIfg.toNat + 3) / 4 * 4 → F ≤ s.cfg.maxPkt.toNat →
    D = s.cfg.destMac.toNat → S = s.cfg.srcMac.toNat → C = (crc32 body).toNat →
    E = (match s.params.etherSel with
      | .length => 16 + I
      | .ecpriEthertype => 0xAEFE) →
    body = [BitVec.ofNat 8 (D / 2 ^ 40), BitVec.ofNat 8 (D / 2 ^ 32), BitVec.ofNat 8 (D / 2 ^ 24), BitVec.ofNat 8 (D / 2 ^ 16),
        BitVec.ofNat 8 (D / 2 ^ 8), BitVec.ofNat 8 D] ++
      [BitVec.ofNat 8 (S / 2 ^ 40), BitVec.ofNat 8 (S / 2 ^ 32), BitVec.ofNat 8 (S / 2 ^ 24), BitVec.ofNat 8 (S / 2 ^ 16),
        BitVec.ofNat 8 (S / 2 ^ 8), BitVec.ofNat 8 S] ++
      [BitVec.ofNat 8 (E / 2 ^ 8), BitVec.ofNat 8 E] ++
      [0x00, 0x00, BitVec.ofNat 8 ((8 + I) / 256), BitVec.ofNat 8 ((8 + I) % 256), 0x00, 0x00, 0x00, d.ecpriSeqId] ++
      [0x00, d.frameId, BitVec.ofNat 8 (d.subframeId.toNat * 16 + d.slotId.toNat / 4),
        BitVec.ofNat 8 (d.slotId.toNat % 4 * 64 + d.symbolId.toNat), 0xFF, BitVec.ofNat 8 (0xF0 + d.startPrbu.toNat / 256),
        BitVec.ofNat 8 (d.startPrbu.toNat % 256),
        BitVec.ofNat 8 (if s.plan.nrbPerPkt.toNat = 273 then 0 else s.plan.nrbPerPkt.toNat)] ++ iq →
    fr = [0xFB, 0x55, 0x55, 0x55, 0x55, 0x55, 0x55, 0xD5] ++ body ++
      [BitVec.ofNat 8 (C / 2 ^ 24), BitVec.ofNat 8 (C / 2 ^ 16), BitVec.ofNat 8 (C / 2 ^ 8), BitVec.ofNat 8 C] ++
      List.replicate (F - (42 + I)) 0x07 →
    ∃ t, exec .step s = .next t ∧
      t = { s with
        ids := d, iqScratch := iq, packetNo := s.packetNo + 1, phase := .running,
        emitted := BitVec.ofNat 128 (s.emitted.toNat + F), out := t.out } ∧
      ∀ x, Mem.read t.out x =
        if s.emitted.toNat ≤ x ∧ x < s.emitted.toNat + F ∧ x < s.params.outCap then fr[x - s.emitted.toNat]?
        else Mem.read s.out x

/-- R131, R153, R190, R205: a STEP that fails enters ERROR with the advance and the slice kept and nothing emitted; the O-RAN error comes before the
frame's length (R206). -/
def Obligations.StepErrorEmitsNothing : Prop :=
  ∀ (s : State) (d : IdCounters) (iq : List Octet),
    (s.phase = .planned ∨ (s.phase = .running ∧ s.packetNo.toNat < s.plan.totalPackets.toNat)) →
    d = (if s.packetNo.toNat = 0 then s.ids else advanceIds s.plan s.packetNo.toNat s.ids) →
    s.iqSlice s.packetNo.toNat = .ok iq →
    ((63 < d.slotId.toNat ∨ 1023 < d.startPrbu.toNat ∨ (255 < s.plan.nrbPerPkt.toNat ∧ s.plan.nrbPerPkt.toNat ≠ 273)) →
      exec .step s = .next { s with ids := d, iqScratch := iq, err := .oranFieldOverflow, phase := .error }) ∧
    (d.slotId.toNat ≤ 63 → d.startPrbu.toNat ≤ 1023 → (s.plan.nrbPerPkt.toNat ≤ 255 ∨ s.plan.nrbPerPkt.toNat = 273) →
      8 + iq.length ≤ 0xFFFF → s.cfg.maxPkt.toNat < (42 + iq.length + s.cfg.minIfg.toNat + 3) / 4 * 4 →
      exec .step s = .next { s with ids := d, iqScratch := iq, err := .ethernetFrameTooLarge, phase := .error })

/-- R182: in random mode the payload octet at cursor k is `rng_octet` of the seed and k, whatever the generator is; POOL is not read. In fixed mode it
is the pool octet at k mod PLAN_POOL_LEN. Where one of them is unwritten, the slice faults, and so do STEP and RUN at that packet. -/
def Obligations.PayloadSliceFollowsCursor : Prop :=
  (∀ (s : State) (p : Nat),
    (s.cfg.payloadType ≠ 1 →
      s.iqSlice p = .ok ((List.range s.plan.iqPerPkt.toNat).map fun i =>
        Config.rngOctet s.cfg.rngSeed (BitVec.ofNat 64 (p * s.plan.iqPerPkt.toNat + i)))) ∧
    (s.cfg.payloadType = 1 → ∀ iq, s.iqSlice p = .ok iq → iq.length = s.plan.iqPerPkt.toNat ∧
      ∀ i, i < iq.length → Mem.read s.pool ((p * s.plan.iqPerPkt.toNat + i) % s.plan.poolLen.toNat) = iq[i]?) ∧
    (s.cfg.payloadType = 1 → ∀ i, i < s.plan.iqPerPkt.toNat →
      Mem.read s.pool ((p * s.plan.iqPerPkt.toNat + i) % s.plan.poolLen.toNat) = none → s.iqSlice p = .error .unwrittenOctet)) ∧
  ∀ (s : State) (i : Nat), (s.phase = .planned ∨ s.phase = .running) → s.packetNo.toNat < s.plan.totalPackets.toNat →
    s.cfg.payloadType = 1 → i < s.plan.iqPerPkt.toNat →
    Mem.read s.pool ((s.packetNo.toNat * s.plan.iqPerPkt.toNat + i) % s.plan.poolLen.toNat) = none →
      exec .step s = .fault .unwrittenOctet ∧ exec .run s = .fault .unwrittenOctet

/-- R185 and R186: under the plan of a successful PLAN, the counters that R181 and R184 give packet p have the closed forms, for every p. -/
def Obligations.IdentifiersFollowClosedForms : Prop :=
  ∀ (s : State) (p : Nat), s.planOk = true →
    (idsAfter s.plan p).symbolId.toNat = p / s.plan.pktsPerSymbol.toNat % 14 ∧
      (idsAfter s.plan p).slotId.toNat = p / s.plan.pktsPerSlot.toNat % s.plan.slotsPerSf.toNat ∧
      (idsAfter s.plan p).subframeId.toNat = p / s.plan.pktsPerSubframe.toNat % 10 ∧
      (idsAfter s.plan p).frameId.toNat = p / s.plan.pktsPerFrame.toNat % 256 ∧
      (idsAfter s.plan p).ecpriSeqId.toNat = p % 255 ∧
      (idsAfter s.plan p).startPrbu.toNat = p % s.plan.pktsPerSymbol.toNat * s.plan.nrbPerPkt.toNat ∧
      (idsAfter s.plan p).startPrbu.toNat ≤ 272 ∧ idsAfter s.plan p = idsAt s.plan p

/-- R245: the sequence number of every packet is below 255, and packets 254, 255 and 256 carry 254, 0 and 1, whatever the plan. -/
def Obligations.SequenceNumberWrapsAt255 : Prop :=
  ∀ pl : PlanRegs, (∀ p, (idsAfter pl p).ecpriSeqId.toNat < 255) ∧ (idsAfter pl 254).ecpriSeqId = 254 ∧
    (idsAfter pl 255).ecpriSeqId = 0 ∧ (idsAfter pl 256).ecpriSeqId = 1

/-- R191: where STEP may run, RUN is one STEP and then RUN on what it leaves, unless STEP ends in ERROR or faults; with no packet left it is FINISH.
So RUN and the remaining STEPs followed by FINISH give the same state. -/
def Obligations.RunIsStepsThenFinish : Prop :=
  (∀ s : State, (s.phase = .planned ∨ s.phase = .running) → s.packetNo.toNat < s.plan.totalPackets.toNat →
      exec .run s =
        match exec .step s with
        | .next t => if t.phase = .error then .next t else exec .run t
        | .fault f => .fault f
        | .refused r => .refused r) ∧
    ∀ s : State, s.phase = .running → s.packetNo = s.plan.totalPackets → exec .run s = exec .finish s

/-- R192: FINISH within the budget appends t = total_bytes − EMITTED octets of 0x07, those below OUT_CAP stored, and enters DONE. -/
def Obligations.FinishAppendsTrailingIfg : Prop :=
  ∀ (s : State) (t : Nat), s.phase = .running → s.packetNo = s.plan.totalPackets →
    s.emitted.toNat ≤ s.plan.totalBytes.toNat → t = s.plan.totalBytes.toNat - s.emitted.toNat →
    ∃ u, exec .finish s = .next u ∧
      u = { s with resTrailIfg := BitVec.ofNat 64 t, phase := .done, emitted := BitVec.ofNat 128 s.plan.totalBytes.toNat, out := u.out } ∧
      u.indexRead 0x23 = s.plan.totalBytes ∧
      ∀ x, Mem.read u.out x =
        if s.emitted.toNat ≤ x ∧ x < s.plan.totalBytes.toNat ∧ x < s.params.outCap then some 0x07 else Mem.read s.out x

/-- R192 and R205: FINISH over the budget raises PlanInfeasible; ERR and PHASE alone change. -/
def Obligations.FinishOverBudgetIsInfeasible : Prop :=
  ∀ s : State, s.phase = .running → s.packetNo = s.plan.totalPackets → s.plan.totalBytes.toNat < s.emitted.toNat →
    exec .finish s = .next { s with err := .planInfeasible, phase := .error }

/-- R173: how RUN ends after a successful PLAN with its payload in place: the first matching case of five decides. Every slot value below S occurs in
a run, and `frame_id` stays below 25. -/
def Obligations.RunOutcomeAfterPlan : Prop :=
  ∀ (s : State) (F S N T B : Nat), s.readyToRun = true → F = s.plan.frameLen.toNat → S = s.plan.slotsPerSf.toNat →
    N = s.plan.nrbPerPkt.toNat → T = s.plan.totalPackets.toNat → B = s.plan.totalBytes.toNat →
    (∀ v, v < S → ∃ p, p < T ∧ (idsAfter s.plan p).slotId.toNat = v) ∧ (∀ p, p < T → (idsAfter s.plan p).frameId.toNat < 25) ∧
    ∃ t, exec .run s = .next t ∧
      if 256 ≤ N ∧ N ≤ 272 then
        t.phase = .error ∧ t.err = .oranFieldOverflow ∧ t.packetNo.toNat = 0 ∧ t.emitted.toNat = 0
      else if s.cfg.maxPkt.toNat < F then
        t.phase = .error ∧ t.err = .ethernetFrameTooLarge ∧ t.packetNo.toNat = 0 ∧ t.emitted.toNat = 0
      else if 64 < S then
        t.phase = .error ∧ t.err = .oranFieldOverflow ∧ t.packetNo.toNat = 64 * s.plan.pktsPerSlot.toNat ∧
          t.emitted.toNat = 64 * s.plan.pktsPerSlot.toNat * F
      else if B < T * F then
        t.phase = .error ∧ t.err = .planInfeasible ∧ t.packetNo.toNat = T ∧ t.emitted.toNat = T * F
      else
        t.phase = .done ∧ t.err = s.err ∧ t.packetNo.toNat = T ∧ t.emitted.toNat = B ∧ t.resTrailIfg.toNat = B - T * F

/-- R3, R183, R186, R189, R195: the stream of a run that succeeds. RUN ends in DONE with exactly `total_bytes` octets: frame p at p·F for every p < T,
then 0x07 to the end; in fixed mode octet i of packet p's payload is the pool octet at (p·ipp + i) mod pool_len. RUN changes nothing else. -/
def Obligations.RunProducesTheStream : Prop :=
  ∀ s : State, s.readyToRun = true → s.runSucceeds = true →
    ∃ t, exec .run s = .next t ∧
      t = { s with
        phase := .done, packetNo := s.plan.totalPackets, emitted := BitVec.ofNat 128 s.plan.totalBytes.toNat,
        ids := idsAt s.plan (s.plan.totalPackets.toNat - 1), iqScratch := t.iqScratch, out := t.out,
        resTrailIfg := BitVec.ofNat 64 (s.plan.totalBytes.toNat - s.plan.totalPackets.toNat * s.plan.frameLen.toNat) } ∧
      (∀ p, p < s.plan.totalPackets.toNat → ∃ fr, s.packetFrame p fr ∧ fr.length = s.plan.frameLen.toNat ∧
        ∀ j, j < fr.length → t.hostOctet .out (p * s.plan.frameLen.toNat + j) = .ok (fr.getD j 0)) ∧
      (∀ x, s.plan.totalPackets.toNat * s.plan.frameLen.toNat ≤ x → x < s.plan.totalBytes.toNat → t.hostOctet .out x = .ok 0x07) ∧
      (s.cfg.payloadType = 1 → ∀ p i, p < s.plan.totalPackets.toNat → i < s.plan.iqPerPkt.toNat →
        t.hostOctet .out (p * s.plan.frameLen.toNat + 38 + i) =
          s.hostOctet .pool ((p * s.plan.iqPerPkt.toNat + i) % s.plan.poolLen.toNat))

/-- R234: after a run that succeeded, PLAN is illegal, CLEAR keeps the configuration and POOL, and CLEAR, PLAN, RUN produce the same stream again,
octet for octet, in either payload mode. -/
def Obligations.SecondRunGivesTheSameStream : Prop :=
  ∀ s : State, s.readyToRun = true → s.runSucceeds = true →
    ∃ t u v w, exec .run s = .next t ∧ t.phase = .done ∧ exec .plan t = .next { t with err := .illegalCommand, phase := .error } ∧
      exec .clear t = .next u ∧ u.cfg = s.cfg ∧ u.pool = s.pool ∧ exec .plan u = .next v ∧ exec .run v = .next w ∧
      w.phase = .done ∧ w.emitted = t.emitted ∧ ∀ x, x < t.emitted.toNat → w.hostOctet .out x = t.hostOctet .out x

/-! ### Whole-machine rules -/

/-- R209: only CLEAR and hardware reset leave phase ERROR, and both do, to IDLE, with packet 0 the next. A unit command, its errors included, changes
no phase. -/
def Obligations.OnlyClearOrResetLeaveError : Prop :=
  (∀ (s t : State), s.phase = .error → step s = .next t → t.phase ≠ .error →
    t.phase = .idle ∧ t.packetNo = 0 ∧
      ((∃ es, s.script = .writeReg 0x01 (encode .clear) :: es) ∨ ∃ es, s.script = .hardwareReset :: es)) ∧
  (∀ (s : State) (es : List HostEvent), s.phase = .error →
    (s.script = .writeReg 0x01 (encode .clear) :: es ∨ s.script = .hardwareReset :: es) → ∃ t, step s = .next t ∧ t.phase = .idle) ∧
  ∀ (s t : State) (i : Instr), i.isUnit = true → exec i s = .next t → t.phase = s.phase

/-- R25 and R208: while a step stays in ERROR the code stays the first error's, and so do the counts, the identifiers, the plan, the configuration,
POOL and OUT. -/
def Obligations.ErrorPhaseKeepsFirstError : Prop :=
  ∀ (s t : State), s.phase = .error → step s = .next t → t.phase = .error →
    t.err = s.err ∧ t.packetNo = s.packetNo ∧ t.emitted = s.emitted ∧ t.ids = s.ids ∧ t.plan = s.plan ∧ t.cfg = s.cfg ∧
      t.pool = s.pool ∧ t.out = s.out ∧ t.resTrailIfg = s.resTrailIfg

/-- R25, R205: STATUS.ERR is written only on entry to phase ERROR, or zeroed by CLEAR and reset. -/
def Obligations.ErrWrittenOnlyOnEntryToError : Prop :=
  ∀ (s t : State), step s = .next t → t.err ≠ s.err →
    (s.phase ≠ .error ∧ t.phase = .error) ∨ (t.phase = .idle ∧ t.err = .noError)

/-- R242: from PLAN until CLEAR or reset the configuration and POOL are frozen: outside IDLE, no step but hardware reset changes them. -/
def Obligations.ConfigurationFrozenDuringRun : Prop :=
  ∀ (s t : State), s.phase ≠ .idle → step s = .next t → (∀ es, s.script ≠ .hardwareReset :: es) → t.cfg = s.cfg ∧ t.pool = s.pool

/-- R44: `packet_no` advances only by STEP, by exactly 1, by RUN, or returns to 0 by PLAN, CLEAR or reset. -/
def Obligations.OnlyStepAndRunAdvancePacketNo : Prop :=
  (∀ (s t : State), exec .step s = .next t → t.packetNo = s.packetNo ∨ (t.packetNo = s.packetNo + 1 ∧ t.phase = .running)) ∧
    ∀ (s t : State), step s = .next t → t.packetNo ≠ s.packetNo → t.packetNo = 0 ∨
      ∃ es, s.script = .writeReg 0x01 (encode .step) :: es ∨ s.script = .writeReg 0x01 (encode .run) :: es

/-- R27: LOCKED is sticky: once set, a step that clears it ends in IDLE (CLEAR or hardware reset). -/
def Obligations.LockedIsSticky : Prop :=
  ∀ (s t : State), s.locked = true → step s = .next t → t.locked = false →
    t.phase = .idle ∧ ((∃ es, s.script = .writeReg 0x01 (encode .clear) :: es) ∨ ∃ es, s.script = .hardwareReset :: es)

/-- R10: the implementation parameters are constants: no step changes them. (That they stand in State is the model's choice, log entry 2.) -/
def Obligations.ParametersNeverChange : Prop := ∀ (s t : State), step s = .next t → t.params = s.params

/-- R40 and R63: sequencer commands neither read nor write the ARG_ registers, SCR, RES_CRC and RES_LEN: with other values there, the outcome is the
same with those values kept. -/
def Obligations.SequencerIgnoresUnitState : Prop :=
  ∀ (i : Instr) (s : State) (a : ArgRegs) (m : Mem) (c : BitVec 32) (l : Word), i.isUnit = false →
    exec i (s.withUnitState a m c l) = mapNext (State.withUnitState a m c l) (exec i s)

/-! ### Invariants -/

/-- R64 to R66: every step keeps the canonical form of POOL, SCR and OUT. -/
def Obligations.MemoriesStayCanonical : Prop :=
  ∀ (s t : State), s.memoriesWf = true → step s = .next t → t.memoriesWf = true

/-- R24, R25, R42 to R46, R185, R186, R201, R203: every step keeps the invariant of the machine: the spaces' form, the status codes, and what each
phase says of the plan, the counters and the counts. -/
def Obligations.InvariantIsInductive : Prop :=
  ∀ (s t : State), s.invariant = true → step s = .next t → t.invariant = true

/-- The invariant holds at reset. -/
def Obligations.InvariantHoldsAtReset : Prop := State.reset.invariant = true

/-- R66, R195: every step from a state with the invariant keeps the stream right: each emitted frame at its place, and the trailing IFG in DONE. -/
def Obligations.StreamStaysRight : Prop :=
  ∀ (s t : State), s.invariant = true → s.streamWf → step s = .next t → t.streamWf

/-- The stream is right at reset. -/
def Obligations.StreamRightAtReset : Prop := State.reset.streamWf

/-- R182, R183, R195 item 4: in a state with both invariants, in fixed mode, the octet of an emitted packet p at payload offset i is the pool octet
at (p·ipp + i) mod pool_len. -/
def Obligations.PayloadIsThePoolSlice : Prop :=
  ∀ (s : State) (p i : Nat), s.invariant = true → s.streamWf → (s.phase = .running ∨ s.phase = .done) → s.cfg.payloadType = 1 →
    p < s.packetNo.toNat → i < s.plan.iqPerPkt.toNat → p * s.plan.frameLen.toNat + 38 + i < s.params.outCap →
    s.hostOctet .out (p * s.plan.frameLen.toNat + 38 + i) =
      s.hostOctet .pool ((p * s.plan.iqPerPkt.toNat + i) % s.plan.poolLen.toNat)

/-! ### Host scripts -/

/-- R102: the expansions of the pseudo-instructions, and of the lines of R101 that they expand to. -/
def Obligations.ScriptLinesExpand : Prop :=
  (∀ i : Instr, lineEvents (.command i) = [.writeReg 0x01 (encode i)]) ∧
    (∀ (i : Instr) (a b c : Option Word), lineEvents (.unit i a b c) =
      (a.toList.map fun v => .writeReg 0x10 v) ++ (b.toList.map fun v => .writeReg 0x11 v) ++
        (c.toList.map fun v => .writeReg 0x12 v) ++ lineEvents (.command i)) ∧
    (∀ os : List Octet, lineEvents (.loadPool os) =
      lineEvents (.wb .pool 0 os) ++ [.writeReg 0x0C (BitVec.ofNat 64 os.length)]) ∧
    (∀ (sp : OctetSpace) (a : Nat) (os : List Octet), (lineEvents (.wb sp a os)).length = os.length ∧
      ∀ k b, os[k]? = some b → (lineEvents (.wb sp a os))[k]? = some (HostEvent.writeOctet sp (a + k) b)) ∧
    (∀ (r : Reg) (v : Word), lineEvents (.wr r v) = [.writeReg (regIndex r) v] ∧ lineEvents (.rd r) = [.readReg (regIndex r)] ∧
      regAt (regIndex r) = some r) ∧
    ([Reg.status, .cmd, .cfgLineRate, .cfgCaptureMs, .cfgMinIfg, .cfgDestMac, .cfgSrcMac, .cfgMaxPkt, .cfgScs, .cfgMaxNrb,
        .cfgNrbPerPkt, .cfgPayloadType, .cfgPoolLen, .cfgRngSeed, .argSrc, .argLen, .argDst, .argFrame, .argSubframe, .argSlot,
        .argSymbol, .argStartPrbu, .argNumPrbu, .argSeq, .argEther, .resCrc, .resLen, .resTrailIfg, .outLen, .pktNo, .planTotalBytes,
        .planFramesRadio, .planSlotsPerSf, .planPktsPerSymbol, .planPktsPerSlot, .planPktsPerSubframe, .planPktsPerFrame,
        .planTotalPackets, .planIqPerPkt, .planMaxNrb, .planNrbPerPkt, .planPoolLen, .planFrameLen].map regIndex =
      [0x00, 0x01, 0x02, 0x03, 0x04, 0x05, 0x06, 0x07, 0x08, 0x09, 0x0A, 0x0B, 0x0C, 0x0D, 0x10, 0x11, 0x12, 0x13, 0x14, 0x15, 0x16,
        0x17, 0x18, 0x19, 0x1A, 0x20, 0x21, 0x22, 0x23, 0x24, 0x30, 0x31, 0x32, 0x33, 0x34, 0x35, 0x36, 0x37, 0x38, 0x39, 0x3A, 0x3B,
        0x3C]) ∧
    ∀ (sp : OctetSpace) (a : Nat), lineEvents (.rb sp a) = [.readOctet sp a]
end

