-- ==== Sys2Proof/Laws/Builders.lean ====
section
/-! SUPPORT. What the packet builders answer, said once: their lengths and their one error each. -/

namespace Sys2Proof.Machine

@[simp] theorem be16_length (v : BitVec 16) : (be16 v).length = 2 := rfl
@[simp] theorem be32_length (v : BitVec 32) : (be32 v).length = 4 := rfl
@[simp] theorem be48_length (v : BitVec 48) : (be48 v).length = 6 := rfl
@[simp] theorem preambleSfd_length : preambleSfd.length = 8 := rfl
@[simp] theorem fcsOctets_length (s : List Octet) : (fcsOctets s).length = 4 := rfl
@[simp] theorem oranHeader_length (f : OranFields) : (oranHeader f).length = 8 := rfl

/-! ### O-RAN (R130, R131) -/

theorem oranFieldsFit_iff (f : OranFields) :
    oranFieldsFit f = true ↔
      f.frameId ≤ 255 ∧ f.subframeId ≤ 15 ∧ f.slotId ≤ 63 ∧ f.symbolId ≤ 63 ∧ f.startPrbu ≤ 1023 ∧
        (f.numPrbu ≤ 255 ∨ f.numPrbu = 273) := by
  simp only [oranFieldsFit, Bool.and_eq_true, Bool.or_eq_true, decide_eq_true_eq, and_assoc]
  exact Iff.rfl

/-- The O-RAN builder answers the header and the payload, or OranFieldOverflow. -/
theorem oranPacket_cases (f : OranFields) (iq : List Octet) :
    (oranFieldsFit f = true ∧ oranPacket f iq = .ok (oranHeader f ++ iq)) ∨
      (oranFieldsFit f = false ∧ oranPacket f iq = .error .oranFieldOverflow) := by
  unfold oranPacket; cases oranFieldsFit f <;> simp

theorem oranPacket_length {f : OranFields} {iq p : List Octet} (h : oranPacket f iq = .ok p) : p.length = 8 + iq.length := by
  rcases oranPacket_cases f iq with ⟨-, e⟩ | ⟨-, e⟩ <;> rw [e] at h
  · obtain rfl := Except.ok.inj h; simp
  · cases h

/-! ### eCPRI (R140, R141) -/

/-- The eCPRI builder answers its header and the payload, or EcpriPayloadTooLarge. -/
theorem ecpriPacket_cases (seq : Nat) (pl : List Octet) :
    (pl.length ≤ 0xFFFF ∧ ecpriPacket seq pl =
        .ok ([0x00, 0x00] ++ be16 (BitVec.ofNat 16 pl.length) ++ [0x00, 0x00] ++ be16 (BitVec.ofNat 16 seq) ++ pl)) ∨
      (0xFFFF < pl.length ∧ ecpriPacket seq pl = .error .ecpriPayloadTooLarge) := by
  unfold ecpriPacket
  by_cases h : pl.length > 0xFFFF
  · right; simp only [h, if_true, and_self]
  · left; simp only [h, if_false, and_true]; omega

theorem ecpriPacket_length {seq : Nat} {pl p : List Octet} (h : ecpriPacket seq pl = .ok p) : p.length = 8 + pl.length := by
  rcases ecpriPacket_cases seq pl with ⟨-, e⟩ | ⟨-, e⟩ <;> rw [e] at h
  · obtain rfl := Except.ok.inj h; simp; omega
  · cases h

/-! ### Ethernet (R150 to R154) -/

theorem padCount_lt (l : Nat) : padCount l < 4 := by unfold padCount; omega

theorem add_padCount_mod (l : Nat) : (l + padCount l) % 4 = 0 := by unfold padCount; omega

@[simp] theorem ethBody_length (d s : BitVec 48) (e2 pl : List Octet) :
    (ethBody d s e2 pl).length = 12 + e2.length + pl.length := by simp [ethBody]; omega

@[simp] theorem ethUnpadded_length (d s : BitVec 48) (e2 pl : List Octet) (ifg : Nat) :
    (ethUnpadded d s e2 pl ifg).length = 24 + e2.length + pl.length + ifg := by simp [ethUnpadded]; omega

/-- The Ethernet builder answers the padded frame, or EthernetFrameTooLarge; with a 2-octet EtherType/Length field the length is `frameLen`. -/
theorem ethFrame_cases (d s : BitVec 48) (e2 pl : List Octet) (ifg maxp : Nat) (he : e2.length = 2) :
    (frameLen pl.length ifg ≤ maxp ∧ ethFrame d s e2 pl ifg maxp =
        .ok (ethUnpadded d s e2 pl ifg ++ List.replicate (padCount (26 + pl.length + ifg)) ifgOctet)) ∨
      (maxp < frameLen pl.length ifg ∧ ethFrame d s e2 pl ifg maxp = .error .ethernetFrameTooLarge) := by
  have hl : (ethUnpadded d s e2 pl ifg).length = 26 + pl.length + ifg := by simp [he]
  unfold ethFrame frameLen
  simp only [hl, List.length_append, List.length_replicate]
  by_cases h : 26 + pl.length + ifg + padCount (26 + pl.length + ifg) > maxp
  · right; simp only [h, if_true, and_self]
  · left; simp only [h, if_false, and_true]; omega

theorem ethFrame_length {d s : BitVec 48} {e2 pl f : List Octet} {ifg maxp : Nat} (he : e2.length = 2)
    (h : ethFrame d s e2 pl ifg maxp = .ok f) : f.length = frameLen pl.length ifg ∧ f.length ≤ maxp := by
  rcases ethFrame_cases d s e2 pl ifg maxp he with ⟨hm, e⟩ | ⟨-, e⟩ <;> rw [e] at h
  · obtain rfl := Except.ok.inj h
    have : (ethUnpadded d s e2 pl ifg ++ List.replicate (padCount (26 + pl.length + ifg)) ifgOctet).length = frameLen pl.length ifg := by
      simp [he, frameLen]
    exact ⟨this, this ▸ hm⟩
  · cases h

/-! ### The assembler's chain (R189) -/

/-- `build_packet` answers a frame of the planned length, or the first error of the three builders (R189, R206). -/
theorem State.buildPacket_cases (s : State) (iq : List Octet) :
    (∃ f, s.buildPacket iq = .ok f ∧ oranFieldsFit s.oranFields = true ∧ f.length = frameLen (16 + iq.length) s.cfg.minIfg.toNat ∧
        f.length ≤ s.cfg.maxPkt.toNat) ∨
      (s.buildPacket iq = .error .oranFieldOverflow ∧ oranFieldsFit s.oranFields = false) ∨
      (s.buildPacket iq = .error .ecpriPayloadTooLarge ∧ oranFieldsFit s.oranFields = true ∧ 0xFFFF < 8 + iq.length) ∨
      (s.buildPacket iq = .error .ethernetFrameTooLarge ∧ oranFieldsFit s.oranFields = true ∧
        s.cfg.maxPkt.toNat < frameLen (16 + iq.length) s.cfg.minIfg.toNat) := by
  unfold State.buildPacket
  rcases oranPacket_cases s.oranFields iq with ⟨hf, e⟩ | ⟨hf, e⟩
  · rw [e]; dsimp only
    have lo : (oranHeader s.oranFields ++ iq).length = 8 + iq.length := by simp
    generalize oranHeader s.oranFields ++ iq = oran at lo
    cases he : ecpriPacket s.ids.ecpriSeqId.toNat oran with
    | error c =>
      rcases ecpriPacket_cases s.ids.ecpriSeqId.toNat oran with ⟨-, e'⟩ | ⟨hl, e'⟩
      · rw [he] at e'; cases e'
      · rw [he] at e'; obtain rfl := Except.error.inj e'
        exact .inr (.inr (.inl ⟨rfl, hf, by omega⟩))
    | ok ec =>
      have le := ecpriPacket_length he
      have l16 : ec.length = 16 + iq.length := by omega
      dsimp only
      rcases ethFrame_cases s.cfg.destMac s.cfg.srcMac (be16 (BitVec.ofNat 16 (etherValue s.params.etherSel ec.length))) ec
        s.cfg.minIfg.toNat s.cfg.maxPkt.toNat rfl with ⟨hm, e'⟩ | ⟨hm, e'⟩
      · have := ethFrame_length (be16_length _) e'
        exact .inl ⟨_, e', hf, by rw [this.1, l16], this.2⟩
      · exact .inr (.inr (.inr ⟨e', hf, by rwa [l16] at hm⟩))
  · rw [e]; exact .inr (.inl ⟨rfl, hf⟩)

end Sys2Proof.Machine
end

