-- ==== Sys2Proof/Laws/Memory.lean ====
section
/-! SUPPORT. What the octet-space operations do, said once: a read after a write, what a range read answers, and that every write keeps the
canonical form. -/

namespace Sys2Proof.Machine

/-! ### Reading after a write -/

@[simp] theorem Mem.read_nil (x : Nat) : Mem.read [] x = none := rfl

theorem Mem.read_cons (c : Host.Cell) (m : Mem) (x : Nat) :
    Mem.read (c :: m) x = if x = c.1 then some c.2 else Mem.read m x := by
  simp only [Mem.read, List.lookup]
  by_cases h : x = c.1
  · simp [h]
  · have : (x == c.1) = false := by simp [h]
    simp [h, this]

theorem Mem.read_append (l m : Mem) (x : Nat) : Mem.read (l ++ m) x = (Mem.read l x).or (Mem.read m x) := by
  induction l with
  | nil => simp
  | cons c l ih => by_cases h : x = c.1 <;> simp [Mem.read_cons, h, ih]

theorem Mem.read_filter (p : Nat → Bool) (m : Mem) (x : Nat) :
    Mem.read (m.filter (fun c => p c.1)) x = if p x then Mem.read m x else none := by
  induction m with
  | nil => simp
  | cons c m ih =>
    by_cases hp : p c.1 <;> by_cases h : x = c.1 <;> simp_all [Mem.read_cons]

theorem Mem.read_cellsFrom (a : Nat) (bs : List Octet) (x : Nat) :
    Mem.read (cellsFrom a bs) x = if a ≤ x then bs[x - a]? else none := by
  induction bs generalizing a with
  | nil => simp [cellsFrom]
  | cons b bs ih =>
    rw [cellsFrom, Mem.read_cons, ih]
    by_cases h : x = a
    · simp [h]
    · by_cases h2 : a ≤ x
      · have e : x - a = (x - (a + 1)) + 1 := by omega
        simp [h, h2, show a + 1 ≤ x by omega, e]
      · simp [h, h2, show ¬ a + 1 ≤ x by omega]

/-- A read after `MemWrite`: the octet written, or what stood there before (R65). -/
theorem Mem.read_writeRange (m : Mem) (a : Nat) (bs : List Octet) (x : Nat) :
    Mem.read (Mem.writeRange m a bs) x = if a ≤ x ∧ x < a + bs.length then bs[x - a]? else Mem.read m x := by
  rw [Mem.writeRange, Mem.read_append, Mem.read_append, Mem.read_filter (fun y => decide (y < a)),
    Mem.read_filter (fun y => decide (a + bs.length ≤ y)), Mem.read_cellsFrom]
  by_cases h1 : x < a
  · simp [h1, show ¬ a ≤ x by omega, show ¬ a + bs.length ≤ x by omega]
  · by_cases h2 : x < a + bs.length
    · simp [h1, h2, show a ≤ x by omega, show ¬ a + bs.length ≤ x by omega]
    · have : bs[x - a]? = none := by simp; omega
      simp [h1, h2, show a ≤ x by omega, show a + bs.length ≤ x by omega, this]

theorem Mem.read_writeRange_inside (m : Mem) (a : Nat) (bs : List Octet) (j : Nat) (h : j < bs.length) :
    Mem.read (Mem.writeRange m a bs) (a + j) = bs[j]? := by
  simp [Mem.read_writeRange, h]

theorem Mem.read_writeRange_outside (m : Mem) (a : Nat) (bs : List Octet) (x : Nat) (h : x < a ∨ a + bs.length ≤ x) :
    Mem.read (Mem.writeRange m a bs) x = Mem.read m x := by
  rw [Mem.read_writeRange, if_neg (by omega)]

/-- What `MemRead` answers: the octets of the range, where each is written (R64). -/
theorem Mem.readRange_eq_some (m : Mem) (a n : Nat) (bs : List Octet) :
    Mem.readRange m a n = some bs ↔ bs.length = n ∧ ∀ k, k < n → Mem.read m (a + k) = bs[k]? := by
  induction n generalizing a bs with
  | zero => cases bs <;> simp [Mem.readRange]
  | succ n ih =>
    rw [Mem.readRange]
    constructor
    · intro h
      split at h
      next b cs hb hcs =>
        obtain rfl : b :: cs = bs := by simpa using h
        obtain ⟨hl, hk⟩ := (ih _ _).1 hcs
        refine ⟨by simp [hl], fun k hk' => ?_⟩
        cases k with
        | zero => simpa using hb
        | succ k => have := hk k (by omega); rw [← Nat.add_right_comm] at this; simpa [Nat.add_assoc] using this
      next => simp at h
    · rintro ⟨hl, hk⟩
      cases bs with
      | nil => simp at hl
      | cons b cs =>
        have h0 := hk 0 (by omega)
        have h1 : Mem.readRange m (a + 1) n = some cs := by
          refine (ih _ _).2 ⟨by simpa using hl, fun k hk' => ?_⟩
          have := hk (k + 1) (by omega)
          rw [show a + 1 + k = a + (k + 1) by omega]; simpa using this
        simp only [Nat.add_zero] at h0
        rw [h0, h1]; simp

theorem Mem.readRange_length {m : Mem} {a n : Nat} {bs : List Octet} (h : Mem.readRange m a n = some bs) : bs.length = n :=
  ((Mem.readRange_eq_some m a n bs).1 h).1

/-! ### The canonical form -/

/-- The addresses of a space rise strictly, as a pairwise relation. -/
theorem Mem.rising_iff (m : Mem) : Mem.rising m = true ↔ m.Pairwise (fun c d => c.1 < d.1) := by
  induction m with
  | nil => simp [Mem.rising]
  | cons c m ih =>
    cases m with
    | nil => simp [Mem.rising]
    | cons d m =>
      rw [Mem.rising, Bool.and_eq_true, ih, List.pairwise_cons (a := c), decide_eq_true_iff]
      refine ⟨fun ⟨h, hp⟩ => ⟨fun e he => ?_, hp⟩, fun ⟨h, hp⟩ => ⟨h d (by simp), hp⟩⟩
      rcases List.mem_cons.1 he with rfl | he
      · exact h
      · exact Nat.lt_trans h ((List.pairwise_cons.1 hp).1 e he)

/-- The canonical form, as a proposition. -/
theorem Mem.wf_iff (cap : Nat) (m : Mem) :
    Mem.wf cap m = true ↔ m.Pairwise (fun c d => c.1 < d.1) ∧ ∀ c ∈ m, c.1 < cap := by
  simp [Mem.wf, Mem.rising_iff]

theorem Mem.mem_cellsFrom {a : Nat} {bs : List Octet} {c : Host.Cell} (h : c ∈ cellsFrom a bs) : a ≤ c.1 ∧ c.1 < a + bs.length := by
  induction bs generalizing a with
  | nil => simp [cellsFrom] at h
  | cons b bs ih =>
    rcases List.mem_cons.1 h with rfl | h
    · simp
    · have := ih h; simp; omega

theorem Mem.cellsFrom_pairwise (a : Nat) (bs : List Octet) : (cellsFrom a bs).Pairwise (fun c d => c.1 < d.1) := by
  induction bs generalizing a with
  | nil => exact .nil
  | cons b bs ih => exact .cons (fun c hc => by have := Mem.mem_cellsFrom hc; simp; omega) (ih _)

theorem Mem.wf_nil (cap : Nat) : Mem.wf cap [] = true := rfl

/-- Every write inside a space keeps its canonical form. -/
theorem Mem.wf_writeRange {cap : Nat} {m : Mem} {a : Nat} {bs : List Octet} (hm : Mem.wf cap m = true)
    (h : a + bs.length ≤ cap ∨ bs = []) : Mem.wf cap (Mem.writeRange m a bs) = true := by
  rw [Mem.wf_iff] at hm ⊢
  obtain ⟨hp, hc⟩ := hm
  constructor
  · rw [Mem.writeRange, List.pairwise_append, List.pairwise_append]
    refine ⟨⟨hp.filter _, Mem.cellsFrom_pairwise a bs, fun c hc d hd => ?_⟩, hp.filter _, fun c hc d hd => ?_⟩
    · have := Mem.mem_cellsFrom hd; simp at hc; omega
    · simp only [List.mem_append, List.mem_filter, decide_eq_true_eq] at hc hd
      rcases hc with hc | hc
      · omega
      · have := Mem.mem_cellsFrom hc; omega
  · intro c hc'
    simp only [Mem.writeRange, List.mem_append, List.mem_filter] at hc'
    rcases hc' with (⟨h', -⟩ | h') | ⟨h', -⟩
    · exact hc c h'
    · have := Mem.mem_cellsFrom h'
      rcases h with h | rfl
      · omega
      · simp at this; omega
    · exact hc c h'

theorem Mem.read_eq_some_of_mem {m : Mem} (h : m.Pairwise (fun c d => c.1 < d.1)) {c : Host.Cell} (hc : c ∈ m) :
    Mem.read m c.1 = some c.2 := by
  induction m with
  | nil => simp at hc
  | cons d m ih =>
    obtain ⟨hd, hm⟩ := List.pairwise_cons.1 h
    rw [Mem.read_cons]
    rcases List.mem_cons.1 hc with rfl | hc
    · simp
    · rw [if_neg (by have := hd c hc; omega)]
      exact ih hm hc

theorem Mem.mem_of_read_eq_some {m : Mem} {a : Nat} {b : Octet} (h : Mem.read m a = some b) : (a, b) ∈ m := by
  induction m with
  | nil => simp at h
  | cons c m ih =>
    rw [Mem.read_cons] at h
    split at h
    next e => obtain rfl : c.2 = b := by simpa using h
              simp [e]
    next => exact List.mem_cons_of_mem _ (ih h)

/-- An octet outside a canonical space is unwritten. -/
theorem Mem.read_outside {cap : Nat} {m : Mem} (hm : Mem.wf cap m = true) {a : Nat} (h : cap ≤ a) : Mem.read m a = none := by
  cases hr : Mem.read m a with
  | none => rfl
  | some b =>
    have := ((Mem.wf_iff cap m).1 hm).2 _ (Mem.mem_of_read_eq_some hr)
    simp at this; omega

/-- Spaces in canonical form that read the same are the same data. -/
theorem Mem.ext_read {cap cap' : Nat} {m m' : Mem} (hm : Mem.wf cap m = true) (hm' : Mem.wf cap' m' = true)
    (h : ∀ a, Mem.read m a = Mem.read m' a) : m = m' := by
  obtain ⟨hp, -⟩ := (Mem.wf_iff _ _).1 hm
  obtain ⟨hp', -⟩ := (Mem.wf_iff _ _).1 hm'
  have key : ∀ c : Host.Cell, c ∈ m ↔ c ∈ m' := fun c =>
    ⟨fun hc => Mem.mem_of_read_eq_some (by rw [← h, Mem.read_eq_some_of_mem hp hc]),
      fun hc => Mem.mem_of_read_eq_some (by rw [h, Mem.read_eq_some_of_mem hp' hc])⟩
  have nd : m.Nodup := hp.imp fun hlt he => by rw [he] at hlt; exact absurd hlt (Nat.lt_irrefl _)
  have nd' : m'.Nodup := hp'.imp fun hlt he => by rw [he] at hlt; exact absurd hlt (Nat.lt_irrefl _)
  exact ((List.perm_ext_iff_of_nodup nd nd').2 key).eq_of_pairwise
    (fun c d _ _ hcd hdc => absurd hcd (Nat.lt_asymm hdc)) hp hp'

/-- Writing nothing leaves a canonical space as it is. -/
theorem Mem.writeRange_nil {cap : Nat} {m : Mem} (hm : Mem.wf cap m = true) (a : Nat) : Mem.writeRange m a [] = m :=
  Mem.ext_read (Mem.wf_writeRange hm (.inr rfl)) hm fun x => by rw [Mem.read_writeRange, if_neg (by simp)]

/-! ### Emit -/

/-- `Emit` keeps OUT's canonical form (R66). -/
theorem State.emit_out_wf {s : State} (bs : List Octet) (h : Mem.wf s.params.outCap s.out = true) :
    Mem.wf s.params.outCap (s.emit bs).out = true := by
  refine Mem.wf_writeRange h ?_
  by_cases hc : s.emitted.toNat ≤ s.params.outCap
  · left; simp; omega
  · right; simp [Nat.sub_eq_zero_of_le (Nat.le_of_lt (Nat.lt_of_not_le hc))]

/-- What OUT reads after `Emit` (R66): the new octets at the stream positions from EMITTED on, those below OUT_CAP only. -/
theorem State.emit_out_read (s : State) (bs : List Octet) (x : Nat) :
    Mem.read (s.emit bs).out x =
      if s.emitted.toNat ≤ x ∧ x < s.emitted.toNat + bs.length ∧ x < s.params.outCap then bs[x - s.emitted.toNat]?
      else Mem.read s.out x := by
  show Mem.read (Mem.writeRange _ _ _) x = _
  rw [Mem.read_writeRange]
  by_cases h : s.emitted.toNat ≤ x ∧ x < s.emitted.toNat + bs.length ∧ x < s.params.outCap
  · rw [if_pos h, if_pos (by simp; omega), List.getElem?_take, if_pos (by omega)]
  · rw [if_neg h, if_neg (by simp; omega)]

end Sys2Proof.Machine
end

