-- ==== Sys2Proof/Laws/State.lean ====
section
/-! SUPPORT. One lemma per field per update of State, so that no later proof unfolds a record update. -/

namespace Sys2Proof.Machine

/-! ### State.sequencerError -/

@[simp] theorem State.sequencerError_params (c : ErrCode) (s : State) : (s.sequencerError c).params = s.params := rfl
@[simp] theorem State.sequencerError_cfg (c : ErrCode) (s : State) : (s.sequencerError c).cfg = s.cfg := rfl
@[simp] theorem State.sequencerError_arg (c : ErrCode) (s : State) : (s.sequencerError c).arg = s.arg := rfl
@[simp] theorem State.sequencerError_resCrc (c : ErrCode) (s : State) : (s.sequencerError c).resCrc = s.resCrc := rfl
@[simp] theorem State.sequencerError_resLen (c : ErrCode) (s : State) : (s.sequencerError c).resLen = s.resLen := rfl
@[simp] theorem State.sequencerError_resTrailIfg (c : ErrCode) (s : State) :
    (s.sequencerError c).resTrailIfg = s.resTrailIfg := rfl
@[simp] theorem State.sequencerError_phase (c : ErrCode) (s : State) : (s.sequencerError c).phase = .error := rfl
@[simp] theorem State.sequencerError_err (c : ErrCode) (s : State) : (s.sequencerError c).err = c := rfl
@[simp] theorem State.sequencerError_lerr (c : ErrCode) (s : State) : (s.sequencerError c).lerr = s.lerr := rfl
@[simp] theorem State.sequencerError_locked (c : ErrCode) (s : State) : (s.sequencerError c).locked = s.locked := rfl
@[simp] theorem State.sequencerError_plan (c : ErrCode) (s : State) : (s.sequencerError c).plan = s.plan := rfl
@[simp] theorem State.sequencerError_packetNo (c : ErrCode) (s : State) :
    (s.sequencerError c).packetNo = s.packetNo := rfl
@[simp] theorem State.sequencerError_emitted (c : ErrCode) (s : State) : (s.sequencerError c).emitted = s.emitted := rfl
@[simp] theorem State.sequencerError_ids (c : ErrCode) (s : State) : (s.sequencerError c).ids = s.ids := rfl
@[simp] theorem State.sequencerError_iqScratch (c : ErrCode) (s : State) :
    (s.sequencerError c).iqScratch = s.iqScratch := rfl
@[simp] theorem State.sequencerError_pool (c : ErrCode) (s : State) : (s.sequencerError c).pool = s.pool := rfl
@[simp] theorem State.sequencerError_scr (c : ErrCode) (s : State) : (s.sequencerError c).scr = s.scr := rfl
@[simp] theorem State.sequencerError_out (c : ErrCode) (s : State) : (s.sequencerError c).out = s.out := rfl
@[simp] theorem State.sequencerError_script (c : ErrCode) (s : State) : (s.sequencerError c).script = s.script := rfl
@[simp] theorem State.sequencerError_answers (c : ErrCode) (s : State) : (s.sequencerError c).answers = s.answers := rfl

/-! ### State.unitError -/

@[simp] theorem State.unitError_params (c : ErrCode) (s : State) : (s.unitError c).params = s.params := rfl
@[simp] theorem State.unitError_cfg (c : ErrCode) (s : State) : (s.unitError c).cfg = s.cfg := rfl
@[simp] theorem State.unitError_arg (c : ErrCode) (s : State) : (s.unitError c).arg = s.arg := rfl
@[simp] theorem State.unitError_resCrc (c : ErrCode) (s : State) : (s.unitError c).resCrc = s.resCrc := rfl
@[simp] theorem State.unitError_resLen (c : ErrCode) (s : State) : (s.unitError c).resLen = s.resLen := rfl
@[simp] theorem State.unitError_resTrailIfg (c : ErrCode) (s : State) :
    (s.unitError c).resTrailIfg = s.resTrailIfg := rfl
@[simp] theorem State.unitError_phase (c : ErrCode) (s : State) : (s.unitError c).phase = s.phase := rfl
@[simp] theorem State.unitError_err (c : ErrCode) (s : State) : (s.unitError c).err = s.err := rfl
@[simp] theorem State.unitError_lerr (c : ErrCode) (s : State) : (s.unitError c).lerr = c := rfl
@[simp] theorem State.unitError_locked (c : ErrCode) (s : State) : (s.unitError c).locked = s.locked := rfl
@[simp] theorem State.unitError_plan (c : ErrCode) (s : State) : (s.unitError c).plan = s.plan := rfl
@[simp] theorem State.unitError_packetNo (c : ErrCode) (s : State) : (s.unitError c).packetNo = s.packetNo := rfl
@[simp] theorem State.unitError_emitted (c : ErrCode) (s : State) : (s.unitError c).emitted = s.emitted := rfl
@[simp] theorem State.unitError_ids (c : ErrCode) (s : State) : (s.unitError c).ids = s.ids := rfl
@[simp] theorem State.unitError_iqScratch (c : ErrCode) (s : State) : (s.unitError c).iqScratch = s.iqScratch := rfl
@[simp] theorem State.unitError_pool (c : ErrCode) (s : State) : (s.unitError c).pool = s.pool := rfl
@[simp] theorem State.unitError_scr (c : ErrCode) (s : State) : (s.unitError c).scr = s.scr := rfl
@[simp] theorem State.unitError_out (c : ErrCode) (s : State) : (s.unitError c).out = s.out := rfl
@[simp] theorem State.unitError_script (c : ErrCode) (s : State) : (s.unitError c).script = s.script := rfl
@[simp] theorem State.unitError_answers (c : ErrCode) (s : State) : (s.unitError c).answers = s.answers := rfl

/-! ### State.cleared -/

@[simp] theorem State.cleared_params (s : State) : s.cleared.params = s.params := rfl
@[simp] theorem State.cleared_cfg (s : State) : s.cleared.cfg = s.cfg := rfl
@[simp] theorem State.cleared_arg (s : State) : s.cleared.arg = s.arg := rfl
@[simp] theorem State.cleared_resCrc (s : State) : s.cleared.resCrc = s.resCrc := rfl
@[simp] theorem State.cleared_resLen (s : State) : s.cleared.resLen = s.resLen := rfl
@[simp] theorem State.cleared_resTrailIfg (s : State) : s.cleared.resTrailIfg = 0 := rfl
@[simp] theorem State.cleared_phase (s : State) : s.cleared.phase = .idle := rfl
@[simp] theorem State.cleared_err (s : State) : s.cleared.err = .noError := rfl
@[simp] theorem State.cleared_lerr (s : State) : s.cleared.lerr = .noError := rfl
@[simp] theorem State.cleared_locked (s : State) : s.cleared.locked = false := rfl
@[simp] theorem State.cleared_plan (s : State) : s.cleared.plan = PlanRegs.zero := rfl
@[simp] theorem State.cleared_packetNo (s : State) : s.cleared.packetNo = 0 := rfl
@[simp] theorem State.cleared_emitted (s : State) : s.cleared.emitted = 0 := rfl
@[simp] theorem State.cleared_ids (s : State) : s.cleared.ids = IdCounters.zero := rfl
@[simp] theorem State.cleared_iqScratch (s : State) : s.cleared.iqScratch = s.iqScratch := rfl
@[simp] theorem State.cleared_pool (s : State) : s.cleared.pool = s.pool := rfl
@[simp] theorem State.cleared_scr (s : State) : s.cleared.scr = s.scr := rfl
@[simp] theorem State.cleared_out (s : State) : s.cleared.out = s.out := rfl
@[simp] theorem State.cleared_script (s : State) : s.cleared.script = s.script := rfl
@[simp] theorem State.cleared_answers (s : State) : s.cleared.answers = s.answers := rfl

/-! ### State.emit -/

@[simp] theorem State.emit_params (bs : List Octet) (s : State) : (s.emit bs).params = s.params := rfl
@[simp] theorem State.emit_cfg (bs : List Octet) (s : State) : (s.emit bs).cfg = s.cfg := rfl
@[simp] theorem State.emit_arg (bs : List Octet) (s : State) : (s.emit bs).arg = s.arg := rfl
@[simp] theorem State.emit_resCrc (bs : List Octet) (s : State) : (s.emit bs).resCrc = s.resCrc := rfl
@[simp] theorem State.emit_resLen (bs : List Octet) (s : State) : (s.emit bs).resLen = s.resLen := rfl
@[simp] theorem State.emit_resTrailIfg (bs : List Octet) (s : State) : (s.emit bs).resTrailIfg = s.resTrailIfg := rfl
@[simp] theorem State.emit_phase (bs : List Octet) (s : State) : (s.emit bs).phase = s.phase := rfl
@[simp] theorem State.emit_err (bs : List Octet) (s : State) : (s.emit bs).err = s.err := rfl
@[simp] theorem State.emit_lerr (bs : List Octet) (s : State) : (s.emit bs).lerr = s.lerr := rfl
@[simp] theorem State.emit_locked (bs : List Octet) (s : State) : (s.emit bs).locked = s.locked := rfl
@[simp] theorem State.emit_plan (bs : List Octet) (s : State) : (s.emit bs).plan = s.plan := rfl
@[simp] theorem State.emit_packetNo (bs : List Octet) (s : State) : (s.emit bs).packetNo = s.packetNo := rfl
@[simp] theorem State.emit_emitted (bs : List Octet) (s : State) :
    (s.emit bs).emitted = BitVec.ofNat 128 (s.emitted.toNat + bs.length) := rfl
@[simp] theorem State.emit_ids (bs : List Octet) (s : State) : (s.emit bs).ids = s.ids := rfl
@[simp] theorem State.emit_iqScratch (bs : List Octet) (s : State) : (s.emit bs).iqScratch = s.iqScratch := rfl
@[simp] theorem State.emit_pool (bs : List Octet) (s : State) : (s.emit bs).pool = s.pool := rfl
@[simp] theorem State.emit_scr (bs : List Octet) (s : State) : (s.emit bs).scr = s.scr := rfl
@[simp] theorem State.emit_out (bs : List Octet) (s : State) :
    (s.emit bs).out = Mem.writeRange s.out s.emitted.toNat (bs.take (s.params.outCap - s.emitted.toNat)) := rfl
@[simp] theorem State.emit_script (bs : List Octet) (s : State) : (s.emit bs).script = s.script := rfl
@[simp] theorem State.emit_answers (bs : List Octet) (s : State) : (s.emit bs).answers = s.answers := rfl

/-! ### State.writeBuilt -/

@[simp] theorem State.writeBuilt_params (dst : Nat) (pkt : List Octet) (s : State) :
    (s.writeBuilt dst pkt).params = s.params := rfl
@[simp] theorem State.writeBuilt_cfg (dst : Nat) (pkt : List Octet) (s : State) :
    (s.writeBuilt dst pkt).cfg = s.cfg := rfl
@[simp] theorem State.writeBuilt_arg (dst : Nat) (pkt : List Octet) (s : State) :
    (s.writeBuilt dst pkt).arg = s.arg := rfl
@[simp] theorem State.writeBuilt_resCrc (dst : Nat) (pkt : List Octet) (s : State) :
    (s.writeBuilt dst pkt).resCrc = s.resCrc := rfl
@[simp] theorem State.writeBuilt_resLen (dst : Nat) (pkt : List Octet) (s : State) :
    (s.writeBuilt dst pkt).resLen = BitVec.ofNat 64 pkt.length := rfl
@[simp] theorem State.writeBuilt_resTrailIfg (dst : Nat) (pkt : List Octet) (s : State) :
    (s.writeBuilt dst pkt).resTrailIfg = s.resTrailIfg := rfl
@[simp] theorem State.writeBuilt_phase (dst : Nat) (pkt : List Octet) (s : State) :
    (s.writeBuilt dst pkt).phase = s.phase := rfl
@[simp] theorem State.writeBuilt_err (dst : Nat) (pkt : List Octet) (s : State) :
    (s.writeBuilt dst pkt).err = s.err := rfl
@[simp] theorem State.writeBuilt_lerr (dst : Nat) (pkt : List Octet) (s : State) :
    (s.writeBuilt dst pkt).lerr = .noError := rfl
@[simp] theorem State.writeBuilt_locked (dst : Nat) (pkt : List Octet) (s : State) :
    (s.writeBuilt dst pkt).locked = s.locked := rfl
@[simp] theorem State.writeBuilt_plan (dst : Nat) (pkt : List Octet) (s : State) :
    (s.writeBuilt dst pkt).plan = s.plan := rfl
@[simp] theorem State.writeBuilt_packetNo (dst : Nat) (pkt : List Octet) (s : State) :
    (s.writeBuilt dst pkt).packetNo = s.packetNo := rfl
@[simp] theorem State.writeBuilt_emitted (dst : Nat) (pkt : List Octet) (s : State) :
    (s.writeBuilt dst pkt).emitted = s.emitted := rfl
@[simp] theorem State.writeBuilt_ids (dst : Nat) (pkt : List Octet) (s : State) :
    (s.writeBuilt dst pkt).ids = s.ids := rfl
@[simp] theorem State.writeBuilt_iqScratch (dst : Nat) (pkt : List Octet) (s : State) :
    (s.writeBuilt dst pkt).iqScratch = s.iqScratch := rfl
@[simp] theorem State.writeBuilt_pool (dst : Nat) (pkt : List Octet) (s : State) :
    (s.writeBuilt dst pkt).pool = s.pool := rfl
@[simp] theorem State.writeBuilt_scr (dst : Nat) (pkt : List Octet) (s : State) :
    (s.writeBuilt dst pkt).scr = Mem.writeRange s.scr dst pkt := rfl
@[simp] theorem State.writeBuilt_out (dst : Nat) (pkt : List Octet) (s : State) :
    (s.writeBuilt dst pkt).out = s.out := rfl
@[simp] theorem State.writeBuilt_script (dst : Nat) (pkt : List Octet) (s : State) :
    (s.writeBuilt dst pkt).script = s.script := rfl
@[simp] theorem State.writeBuilt_answers (dst : Nat) (pkt : List Octet) (s : State) :
    (s.writeBuilt dst pkt).answers = s.answers := rfl

/-! ### State.planned -/

@[simp] theorem State.planned_params (r : PlanRegs) (s : State) : (s.planned r).params = s.params := rfl
@[simp] theorem State.planned_cfg (r : PlanRegs) (s : State) : (s.planned r).cfg = s.cfg := rfl
@[simp] theorem State.planned_arg (r : PlanRegs) (s : State) : (s.planned r).arg = s.arg := rfl
@[simp] theorem State.planned_resCrc (r : PlanRegs) (s : State) : (s.planned r).resCrc = s.resCrc := rfl
@[simp] theorem State.planned_resLen (r : PlanRegs) (s : State) : (s.planned r).resLen = s.resLen := rfl
@[simp] theorem State.planned_resTrailIfg (r : PlanRegs) (s : State) : (s.planned r).resTrailIfg = 0 := rfl
@[simp] theorem State.planned_phase (r : PlanRegs) (s : State) : (s.planned r).phase = .planned := rfl
@[simp] theorem State.planned_err (r : PlanRegs) (s : State) : (s.planned r).err = s.err := rfl
@[simp] theorem State.planned_lerr (r : PlanRegs) (s : State) : (s.planned r).lerr = s.lerr := rfl
@[simp] theorem State.planned_locked (r : PlanRegs) (s : State) : (s.planned r).locked = s.locked := rfl
@[simp] theorem State.planned_plan (r : PlanRegs) (s : State) : (s.planned r).plan = r := rfl
@[simp] theorem State.planned_packetNo (r : PlanRegs) (s : State) : (s.planned r).packetNo = 0 := rfl
@[simp] theorem State.planned_emitted (r : PlanRegs) (s : State) : (s.planned r).emitted = 0 := rfl
@[simp] theorem State.planned_ids (r : PlanRegs) (s : State) : (s.planned r).ids = IdCounters.zero := rfl
@[simp] theorem State.planned_iqScratch (r : PlanRegs) (s : State) : (s.planned r).iqScratch = s.iqScratch := rfl
@[simp] theorem State.planned_pool (r : PlanRegs) (s : State) : (s.planned r).pool = s.pool := rfl
@[simp] theorem State.planned_scr (r : PlanRegs) (s : State) : (s.planned r).scr = s.scr := rfl
@[simp] theorem State.planned_out (r : PlanRegs) (s : State) : (s.planned r).out = s.out := rfl
@[simp] theorem State.planned_script (r : PlanRegs) (s : State) : (s.planned r).script = s.script := rfl
@[simp] theorem State.planned_answers (r : PlanRegs) (s : State) : (s.planned r).answers = s.answers := rfl

/-! ### State.frameEmitted -/

@[simp] theorem State.frameEmitted_params (fr : List Octet) (s : State) : (s.frameEmitted fr).params = s.params := rfl
@[simp] theorem State.frameEmitted_cfg (fr : List Octet) (s : State) : (s.frameEmitted fr).cfg = s.cfg := rfl
@[simp] theorem State.frameEmitted_arg (fr : List Octet) (s : State) : (s.frameEmitted fr).arg = s.arg := rfl
@[simp] theorem State.frameEmitted_resCrc (fr : List Octet) (s : State) : (s.frameEmitted fr).resCrc = s.resCrc := rfl
@[simp] theorem State.frameEmitted_resLen (fr : List Octet) (s : State) : (s.frameEmitted fr).resLen = s.resLen := rfl
@[simp] theorem State.frameEmitted_resTrailIfg (fr : List Octet) (s : State) :
    (s.frameEmitted fr).resTrailIfg = s.resTrailIfg := rfl
@[simp] theorem State.frameEmitted_phase (fr : List Octet) (s : State) : (s.frameEmitted fr).phase = .running := rfl
@[simp] theorem State.frameEmitted_err (fr : List Octet) (s : State) : (s.frameEmitted fr).err = s.err := rfl
@[simp] theorem State.frameEmitted_lerr (fr : List Octet) (s : State) : (s.frameEmitted fr).lerr = s.lerr := rfl
@[simp] theorem State.frameEmitted_locked (fr : List Octet) (s : State) : (s.frameEmitted fr).locked = s.locked := rfl
@[simp] theorem State.frameEmitted_plan (fr : List Octet) (s : State) : (s.frameEmitted fr).plan = s.plan := rfl
@[simp] theorem State.frameEmitted_packetNo (fr : List Octet) (s : State) :
    (s.frameEmitted fr).packetNo = s.packetNo + 1 := rfl
@[simp] theorem State.frameEmitted_emitted (fr : List Octet) (s : State) :
    (s.frameEmitted fr).emitted = BitVec.ofNat 128 (s.emitted.toNat + fr.length) := rfl
@[simp] theorem State.frameEmitted_ids (fr : List Octet) (s : State) : (s.frameEmitted fr).ids = s.ids := rfl
@[simp] theorem State.frameEmitted_iqScratch (fr : List Octet) (s : State) :
    (s.frameEmitted fr).iqScratch = s.iqScratch := rfl
@[simp] theorem State.frameEmitted_pool (fr : List Octet) (s : State) : (s.frameEmitted fr).pool = s.pool := rfl
@[simp] theorem State.frameEmitted_scr (fr : List Octet) (s : State) : (s.frameEmitted fr).scr = s.scr := rfl
@[simp] theorem State.frameEmitted_out (fr : List Octet) (s : State) : (s.frameEmitted fr).out = (s.emit fr).out := rfl
@[simp] theorem State.frameEmitted_script (fr : List Octet) (s : State) : (s.frameEmitted fr).script = s.script := rfl
@[simp] theorem State.frameEmitted_answers (fr : List Octet) (s : State) :
    (s.frameEmitted fr).answers = s.answers := rfl

/-! ### State.finished -/

@[simp] theorem State.finished_params (t : Nat) (s : State) : (s.finished t).params = s.params := rfl
@[simp] theorem State.finished_cfg (t : Nat) (s : State) : (s.finished t).cfg = s.cfg := rfl
@[simp] theorem State.finished_arg (t : Nat) (s : State) : (s.finished t).arg = s.arg := rfl
@[simp] theorem State.finished_resCrc (t : Nat) (s : State) : (s.finished t).resCrc = s.resCrc := rfl
@[simp] theorem State.finished_resLen (t : Nat) (s : State) : (s.finished t).resLen = s.resLen := rfl
@[simp] theorem State.finished_resTrailIfg (t : Nat) (s : State) : (s.finished t).resTrailIfg = BitVec.ofNat 64 t := rfl
@[simp] theorem State.finished_phase (t : Nat) (s : State) : (s.finished t).phase = .done := rfl
@[simp] theorem State.finished_err (t : Nat) (s : State) : (s.finished t).err = s.err := rfl
@[simp] theorem State.finished_lerr (t : Nat) (s : State) : (s.finished t).lerr = s.lerr := rfl
@[simp] theorem State.finished_locked (t : Nat) (s : State) : (s.finished t).locked = s.locked := rfl
@[simp] theorem State.finished_plan (t : Nat) (s : State) : (s.finished t).plan = s.plan := rfl
@[simp] theorem State.finished_packetNo (t : Nat) (s : State) : (s.finished t).packetNo = s.packetNo := rfl
@[simp] theorem State.finished_emitted (t : Nat) (s : State) :
    (s.finished t).emitted = (s.emit (List.replicate t ifgOctet)).emitted := rfl
@[simp] theorem State.finished_ids (t : Nat) (s : State) : (s.finished t).ids = s.ids := rfl
@[simp] theorem State.finished_iqScratch (t : Nat) (s : State) : (s.finished t).iqScratch = s.iqScratch := rfl
@[simp] theorem State.finished_pool (t : Nat) (s : State) : (s.finished t).pool = s.pool := rfl
@[simp] theorem State.finished_scr (t : Nat) (s : State) : (s.finished t).scr = s.scr := rfl
@[simp] theorem State.finished_out (t : Nat) (s : State) :
    (s.finished t).out = (s.emit (List.replicate t ifgOctet)).out := rfl
@[simp] theorem State.finished_script (t : Nat) (s : State) : (s.finished t).script = s.script := rfl
@[simp] theorem State.finished_answers (t : Nat) (s : State) : (s.finished t).answers = s.answers := rfl

/-! ### State.lockSet -/

@[simp] theorem State.lockSet_params (s : State) : s.lockSet.params = s.params := rfl
@[simp] theorem State.lockSet_cfg (s : State) : s.lockSet.cfg = s.cfg := rfl
@[simp] theorem State.lockSet_arg (s : State) : s.lockSet.arg = s.arg := rfl
@[simp] theorem State.lockSet_resCrc (s : State) : s.lockSet.resCrc = s.resCrc := rfl
@[simp] theorem State.lockSet_resLen (s : State) : s.lockSet.resLen = s.resLen := rfl
@[simp] theorem State.lockSet_resTrailIfg (s : State) : s.lockSet.resTrailIfg = s.resTrailIfg := rfl
@[simp] theorem State.lockSet_phase (s : State) : s.lockSet.phase = s.phase := rfl
@[simp] theorem State.lockSet_err (s : State) : s.lockSet.err = s.err := rfl
@[simp] theorem State.lockSet_lerr (s : State) : s.lockSet.lerr = s.lerr := rfl
@[simp] theorem State.lockSet_locked (s : State) : s.lockSet.locked = true := rfl
@[simp] theorem State.lockSet_plan (s : State) : s.lockSet.plan = s.plan := rfl
@[simp] theorem State.lockSet_packetNo (s : State) : s.lockSet.packetNo = s.packetNo := rfl
@[simp] theorem State.lockSet_emitted (s : State) : s.lockSet.emitted = s.emitted := rfl
@[simp] theorem State.lockSet_ids (s : State) : s.lockSet.ids = s.ids := rfl
@[simp] theorem State.lockSet_iqScratch (s : State) : s.lockSet.iqScratch = s.iqScratch := rfl
@[simp] theorem State.lockSet_pool (s : State) : s.lockSet.pool = s.pool := rfl
@[simp] theorem State.lockSet_scr (s : State) : s.lockSet.scr = s.scr := rfl
@[simp] theorem State.lockSet_out (s : State) : s.lockSet.out = s.out := rfl
@[simp] theorem State.lockSet_script (s : State) : s.lockSet.script = s.script := rfl
@[simp] theorem State.lockSet_answers (s : State) : s.lockSet.answers = s.answers := rfl

/-! ### State.answer -/

@[simp] theorem State.answer_params (x : HostAnswer) (s : State) : (s.answer x).params = s.params := rfl
@[simp] theorem State.answer_cfg (x : HostAnswer) (s : State) : (s.answer x).cfg = s.cfg := rfl
@[simp] theorem State.answer_arg (x : HostAnswer) (s : State) : (s.answer x).arg = s.arg := rfl
@[simp] theorem State.answer_resCrc (x : HostAnswer) (s : State) : (s.answer x).resCrc = s.resCrc := rfl
@[simp] theorem State.answer_resLen (x : HostAnswer) (s : State) : (s.answer x).resLen = s.resLen := rfl
@[simp] theorem State.answer_resTrailIfg (x : HostAnswer) (s : State) : (s.answer x).resTrailIfg = s.resTrailIfg := rfl
@[simp] theorem State.answer_phase (x : HostAnswer) (s : State) : (s.answer x).phase = s.phase := rfl
@[simp] theorem State.answer_err (x : HostAnswer) (s : State) : (s.answer x).err = s.err := rfl
@[simp] theorem State.answer_lerr (x : HostAnswer) (s : State) : (s.answer x).lerr = s.lerr := rfl
@[simp] theorem State.answer_locked (x : HostAnswer) (s : State) : (s.answer x).locked = s.locked := rfl
@[simp] theorem State.answer_plan (x : HostAnswer) (s : State) : (s.answer x).plan = s.plan := rfl
@[simp] theorem State.answer_packetNo (x : HostAnswer) (s : State) : (s.answer x).packetNo = s.packetNo := rfl
@[simp] theorem State.answer_emitted (x : HostAnswer) (s : State) : (s.answer x).emitted = s.emitted := rfl
@[simp] theorem State.answer_ids (x : HostAnswer) (s : State) : (s.answer x).ids = s.ids := rfl
@[simp] theorem State.answer_iqScratch (x : HostAnswer) (s : State) : (s.answer x).iqScratch = s.iqScratch := rfl
@[simp] theorem State.answer_pool (x : HostAnswer) (s : State) : (s.answer x).pool = s.pool := rfl
@[simp] theorem State.answer_scr (x : HostAnswer) (s : State) : (s.answer x).scr = s.scr := rfl
@[simp] theorem State.answer_out (x : HostAnswer) (s : State) : (s.answer x).out = s.out := rfl
@[simp] theorem State.answer_script (x : HostAnswer) (s : State) : (s.answer x).script = s.script := rfl
@[simp] theorem State.answer_answers (x : HostAnswer) (s : State) : (s.answer x).answers = x :: s.answers := rfl

/-! ### State.popEvent -/

@[simp] theorem State.popEvent_params (s : State) : s.popEvent.params = s.params := rfl
@[simp] theorem State.popEvent_cfg (s : State) : s.popEvent.cfg = s.cfg := rfl
@[simp] theorem State.popEvent_arg (s : State) : s.popEvent.arg = s.arg := rfl
@[simp] theorem State.popEvent_resCrc (s : State) : s.popEvent.resCrc = s.resCrc := rfl
@[simp] theorem State.popEvent_resLen (s : State) : s.popEvent.resLen = s.resLen := rfl
@[simp] theorem State.popEvent_resTrailIfg (s : State) : s.popEvent.resTrailIfg = s.resTrailIfg := rfl
@[simp] theorem State.popEvent_phase (s : State) : s.popEvent.phase = s.phase := rfl
@[simp] theorem State.popEvent_err (s : State) : s.popEvent.err = s.err := rfl
@[simp] theorem State.popEvent_lerr (s : State) : s.popEvent.lerr = s.lerr := rfl
@[simp] theorem State.popEvent_locked (s : State) : s.popEvent.locked = s.locked := rfl
@[simp] theorem State.popEvent_plan (s : State) : s.popEvent.plan = s.plan := rfl
@[simp] theorem State.popEvent_packetNo (s : State) : s.popEvent.packetNo = s.packetNo := rfl
@[simp] theorem State.popEvent_emitted (s : State) : s.popEvent.emitted = s.emitted := rfl
@[simp] theorem State.popEvent_ids (s : State) : s.popEvent.ids = s.ids := rfl
@[simp] theorem State.popEvent_iqScratch (s : State) : s.popEvent.iqScratch = s.iqScratch := rfl
@[simp] theorem State.popEvent_pool (s : State) : s.popEvent.pool = s.pool := rfl
@[simp] theorem State.popEvent_scr (s : State) : s.popEvent.scr = s.scr := rfl
@[simp] theorem State.popEvent_out (s : State) : s.popEvent.out = s.out := rfl
@[simp] theorem State.popEvent_script (s : State) : s.popEvent.script = s.script.tail := rfl
@[simp] theorem State.popEvent_answers (s : State) : s.popEvent.answers = s.answers := rfl

/-! ### State.hardwareReset -/

@[simp] theorem State.hardwareReset_params (s : State) : s.hardwareReset.params = s.params := rfl
@[simp] theorem State.hardwareReset_cfg (s : State) : s.hardwareReset.cfg = CfgRegs.zero := rfl
@[simp] theorem State.hardwareReset_arg (s : State) : s.hardwareReset.arg = ArgRegs.zero := rfl
@[simp] theorem State.hardwareReset_resCrc (s : State) : s.hardwareReset.resCrc = 0 := rfl
@[simp] theorem State.hardwareReset_resLen (s : State) : s.hardwareReset.resLen = 0 := rfl
@[simp] theorem State.hardwareReset_resTrailIfg (s : State) : s.hardwareReset.resTrailIfg = 0 := rfl
@[simp] theorem State.hardwareReset_phase (s : State) : s.hardwareReset.phase = .idle := rfl
@[simp] theorem State.hardwareReset_err (s : State) : s.hardwareReset.err = .noError := rfl
@[simp] theorem State.hardwareReset_lerr (s : State) : s.hardwareReset.lerr = .noError := rfl
@[simp] theorem State.hardwareReset_locked (s : State) : s.hardwareReset.locked = false := rfl
@[simp] theorem State.hardwareReset_plan (s : State) : s.hardwareReset.plan = PlanRegs.zero := rfl
@[simp] theorem State.hardwareReset_packetNo (s : State) : s.hardwareReset.packetNo = 0 := rfl
@[simp] theorem State.hardwareReset_emitted (s : State) : s.hardwareReset.emitted = 0 := rfl
@[simp] theorem State.hardwareReset_ids (s : State) : s.hardwareReset.ids = IdCounters.zero := rfl
@[simp] theorem State.hardwareReset_iqScratch (s : State) : s.hardwareReset.iqScratch = [] := rfl
@[simp] theorem State.hardwareReset_pool (s : State) : s.hardwareReset.pool = [] := rfl
@[simp] theorem State.hardwareReset_scr (s : State) : s.hardwareReset.scr = [] := rfl
@[simp] theorem State.hardwareReset_out (s : State) : s.hardwareReset.out = [] := rfl
@[simp] theorem State.hardwareReset_script (s : State) : s.hardwareReset.script = s.script := rfl
@[simp] theorem State.hardwareReset_answers (s : State) : s.hardwareReset.answers = s.answers := rfl

/-! ### State.withFetchWord -/

@[simp] theorem State.withFetchWord_params (s : State) (nbits w : Nat) :
    (s.withFetchWord nbits w).params = s.params := rfl
@[simp] theorem State.withFetchWord_cfg (s : State) (nbits w : Nat) :
    (s.withFetchWord nbits w).cfg = s.cfg := rfl
@[simp] theorem State.withFetchWord_arg (s : State) (nbits w : Nat) :
    (s.withFetchWord nbits w).arg = s.arg := rfl
@[simp] theorem State.withFetchWord_resCrc (s : State) (nbits w : Nat) :
    (s.withFetchWord nbits w).resCrc = s.resCrc := rfl
@[simp] theorem State.withFetchWord_resLen (s : State) (nbits w : Nat) :
    (s.withFetchWord nbits w).resLen = s.resLen := rfl
@[simp] theorem State.withFetchWord_resTrailIfg (s : State) (nbits w : Nat) :
    (s.withFetchWord nbits w).resTrailIfg = s.resTrailIfg := rfl
@[simp] theorem State.withFetchWord_phase (s : State) (nbits w : Nat) :
    (s.withFetchWord nbits w).phase = s.phase := rfl
@[simp] theorem State.withFetchWord_err (s : State) (nbits w : Nat) :
    (s.withFetchWord nbits w).err = s.err := rfl
@[simp] theorem State.withFetchWord_lerr (s : State) (nbits w : Nat) :
    (s.withFetchWord nbits w).lerr = s.lerr := rfl
@[simp] theorem State.withFetchWord_locked (s : State) (nbits w : Nat) :
    (s.withFetchWord nbits w).locked = s.locked := rfl
@[simp] theorem State.withFetchWord_plan (s : State) (nbits w : Nat) :
    (s.withFetchWord nbits w).plan = s.plan := rfl
@[simp] theorem State.withFetchWord_packetNo (s : State) (nbits w : Nat) :
    (s.withFetchWord nbits w).packetNo = s.packetNo := rfl
@[simp] theorem State.withFetchWord_emitted (s : State) (nbits w : Nat) :
    (s.withFetchWord nbits w).emitted = s.emitted := rfl
@[simp] theorem State.withFetchWord_ids (s : State) (nbits w : Nat) :
    (s.withFetchWord nbits w).ids = s.ids := rfl
@[simp] theorem State.withFetchWord_iqScratch (s : State) (nbits w : Nat) :
    (s.withFetchWord nbits w).iqScratch = s.iqScratch := rfl
@[simp] theorem State.withFetchWord_pool (s : State) (nbits w : Nat) :
    (s.withFetchWord nbits w).pool = s.pool := rfl
@[simp] theorem State.withFetchWord_scr (s : State) (nbits w : Nat) :
    (s.withFetchWord nbits w).scr = s.scr := rfl
@[simp] theorem State.withFetchWord_out (s : State) (nbits w : Nat) :
    (s.withFetchWord nbits w).out = s.out := rfl
@[simp] theorem State.withFetchWord_script (s : State) (nbits w : Nat) :
    (s.withFetchWord nbits w).script = commandEvent nbits w :: s.script := rfl
@[simp] theorem State.withFetchWord_answers (s : State) (nbits w : Nat) :
    (s.withFetchWord nbits w).answers = s.answers := rfl

/-! ### State.advanced: only the counters change -/

@[simp] theorem State.advanced_params (s : State) : s.advanced.params = s.params := by unfold State.advanced; split <;> rfl
@[simp] theorem State.advanced_cfg (s : State) : s.advanced.cfg = s.cfg := by unfold State.advanced; split <;> rfl
@[simp] theorem State.advanced_arg (s : State) : s.advanced.arg = s.arg := by unfold State.advanced; split <;> rfl
@[simp] theorem State.advanced_resCrc (s : State) : s.advanced.resCrc = s.resCrc := by unfold State.advanced; split <;> rfl
@[simp] theorem State.advanced_resLen (s : State) : s.advanced.resLen = s.resLen := by unfold State.advanced; split <;> rfl
@[simp] theorem State.advanced_resTrailIfg (s : State) : s.advanced.resTrailIfg = s.resTrailIfg := by unfold State.advanced; split <;> rfl
@[simp] theorem State.advanced_phase (s : State) : s.advanced.phase = s.phase := by unfold State.advanced; split <;> rfl
@[simp] theorem State.advanced_err (s : State) : s.advanced.err = s.err := by unfold State.advanced; split <;> rfl
@[simp] theorem State.advanced_lerr (s : State) : s.advanced.lerr = s.lerr := by unfold State.advanced; split <;> rfl
@[simp] theorem State.advanced_locked (s : State) : s.advanced.locked = s.locked := by unfold State.advanced; split <;> rfl
@[simp] theorem State.advanced_plan (s : State) : s.advanced.plan = s.plan := by unfold State.advanced; split <;> rfl
@[simp] theorem State.advanced_packetNo (s : State) : s.advanced.packetNo = s.packetNo := by unfold State.advanced; split <;> rfl
@[simp] theorem State.advanced_emitted (s : State) : s.advanced.emitted = s.emitted := by unfold State.advanced; split <;> rfl
@[simp] theorem State.advanced_iqScratch (s : State) : s.advanced.iqScratch = s.iqScratch := by unfold State.advanced; split <;> rfl
@[simp] theorem State.advanced_pool (s : State) : s.advanced.pool = s.pool := by unfold State.advanced; split <;> rfl
@[simp] theorem State.advanced_scr (s : State) : s.advanced.scr = s.scr := by unfold State.advanced; split <;> rfl
@[simp] theorem State.advanced_out (s : State) : s.advanced.out = s.out := by unfold State.advanced; split <;> rfl
@[simp] theorem State.advanced_script (s : State) : s.advanced.script = s.script := by unfold State.advanced; split <;> rfl
@[simp] theorem State.advanced_answers (s : State) : s.advanced.answers = s.answers := by unfold State.advanced; split <;> rfl

/-! ### State.sliced: the counters and the scratch buffer -/

@[simp] theorem State.sliced_params (iq : List Octet) (s : State) : (s.sliced iq).params = s.params := State.advanced_params s
@[simp] theorem State.sliced_cfg (iq : List Octet) (s : State) : (s.sliced iq).cfg = s.cfg := State.advanced_cfg s
@[simp] theorem State.sliced_arg (iq : List Octet) (s : State) : (s.sliced iq).arg = s.arg := State.advanced_arg s
@[simp] theorem State.sliced_resCrc (iq : List Octet) (s : State) : (s.sliced iq).resCrc = s.resCrc := State.advanced_resCrc s
@[simp] theorem State.sliced_resLen (iq : List Octet) (s : State) : (s.sliced iq).resLen = s.resLen := State.advanced_resLen s
@[simp] theorem State.sliced_resTrailIfg (iq : List Octet) (s : State) : (s.sliced iq).resTrailIfg = s.resTrailIfg := State.advanced_resTrailIfg s
@[simp] theorem State.sliced_phase (iq : List Octet) (s : State) : (s.sliced iq).phase = s.phase := State.advanced_phase s
@[simp] theorem State.sliced_err (iq : List Octet) (s : State) : (s.sliced iq).err = s.err := State.advanced_err s
@[simp] theorem State.sliced_lerr (iq : List Octet) (s : State) : (s.sliced iq).lerr = s.lerr := State.advanced_lerr s
@[simp] theorem State.sliced_locked (iq : List Octet) (s : State) : (s.sliced iq).locked = s.locked := State.advanced_locked s
@[simp] theorem State.sliced_plan (iq : List Octet) (s : State) : (s.sliced iq).plan = s.plan := State.advanced_plan s
@[simp] theorem State.sliced_packetNo (iq : List Octet) (s : State) : (s.sliced iq).packetNo = s.packetNo := State.advanced_packetNo s
@[simp] theorem State.sliced_emitted (iq : List Octet) (s : State) : (s.sliced iq).emitted = s.emitted := State.advanced_emitted s
@[simp] theorem State.sliced_ids (iq : List Octet) (s : State) : (s.sliced iq).ids = s.advanced.ids := rfl
@[simp] theorem State.sliced_iqScratch (iq : List Octet) (s : State) : (s.sliced iq).iqScratch = iq := rfl
@[simp] theorem State.sliced_pool (iq : List Octet) (s : State) : (s.sliced iq).pool = s.pool := State.advanced_pool s
@[simp] theorem State.sliced_scr (iq : List Octet) (s : State) : (s.sliced iq).scr = s.scr := State.advanced_scr s
@[simp] theorem State.sliced_out (iq : List Octet) (s : State) : (s.sliced iq).out = s.out := State.advanced_out s
@[simp] theorem State.sliced_script (iq : List Octet) (s : State) : (s.sliced iq).script = s.script := State.advanced_script s
@[simp] theorem State.sliced_answers (iq : List Octet) (s : State) : (s.sliced iq).answers = s.answers := State.advanced_answers s

theorem State.advanced_ids_first (s : State) (h : s.packetNo.toNat = 0) : s.advanced.ids = s.ids := by
  simp [State.advanced, h]

theorem State.advanced_ids_later (s : State) (h : s.packetNo.toNat ≠ 0) :
    s.advanced.ids = advanceIds s.plan s.packetNo.toNat s.ids := by
  simp [State.advanced, h]

/-! ### State.illegalCommand: only ERR and PHASE change, and in ERROR nothing does -/

@[simp] theorem State.illegalCommand_params (s : State) : s.illegalCommand.params = s.params := by
  unfold State.illegalCommand; split <;> rfl
@[simp] theorem State.illegalCommand_cfg (s : State) : s.illegalCommand.cfg = s.cfg := by
  unfold State.illegalCommand; split <;> rfl
@[simp] theorem State.illegalCommand_arg (s : State) : s.illegalCommand.arg = s.arg := by
  unfold State.illegalCommand; split <;> rfl
@[simp] theorem State.illegalCommand_resCrc (s : State) : s.illegalCommand.resCrc = s.resCrc := by
  unfold State.illegalCommand; split <;> rfl
@[simp] theorem State.illegalCommand_resLen (s : State) : s.illegalCommand.resLen = s.resLen := by
  unfold State.illegalCommand; split <;> rfl
@[simp] theorem State.illegalCommand_resTrailIfg (s : State) : s.illegalCommand.resTrailIfg = s.resTrailIfg := by
  unfold State.illegalCommand; split <;> rfl
@[simp] theorem State.illegalCommand_lerr (s : State) : s.illegalCommand.lerr = s.lerr := by
  unfold State.illegalCommand; split <;> rfl
@[simp] theorem State.illegalCommand_locked (s : State) : s.illegalCommand.locked = s.locked := by
  unfold State.illegalCommand; split <;> rfl
@[simp] theorem State.illegalCommand_plan (s : State) : s.illegalCommand.plan = s.plan := by
  unfold State.illegalCommand; split <;> rfl
@[simp] theorem State.illegalCommand_packetNo (s : State) : s.illegalCommand.packetNo = s.packetNo := by
  unfold State.illegalCommand; split <;> rfl
@[simp] theorem State.illegalCommand_emitted (s : State) : s.illegalCommand.emitted = s.emitted := by
  unfold State.illegalCommand; split <;> rfl
@[simp] theorem State.illegalCommand_ids (s : State) : s.illegalCommand.ids = s.ids := by
  unfold State.illegalCommand; split <;> rfl
@[simp] theorem State.illegalCommand_iqScratch (s : State) : s.illegalCommand.iqScratch = s.iqScratch := by
  unfold State.illegalCommand; split <;> rfl
@[simp] theorem State.illegalCommand_pool (s : State) : s.illegalCommand.pool = s.pool := by
  unfold State.illegalCommand; split <;> rfl
@[simp] theorem State.illegalCommand_scr (s : State) : s.illegalCommand.scr = s.scr := by
  unfold State.illegalCommand; split <;> rfl
@[simp] theorem State.illegalCommand_out (s : State) : s.illegalCommand.out = s.out := by
  unfold State.illegalCommand; split <;> rfl
@[simp] theorem State.illegalCommand_script (s : State) : s.illegalCommand.script = s.script := by
  unfold State.illegalCommand; split <;> rfl
@[simp] theorem State.illegalCommand_answers (s : State) : s.illegalCommand.answers = s.answers := by
  unfold State.illegalCommand; split <;> rfl

@[simp] theorem State.illegalCommand_phase (s : State) : s.illegalCommand.phase = .error := by
  unfold State.illegalCommand; split <;> simp_all

theorem State.illegalCommand_err (s : State) :
    s.illegalCommand.err = if s.phase = .error then s.err else .illegalCommand := by
  unfold State.illegalCommand; split <;> rfl

/-! ### State.cfgWrite: only the CFG_ registers and LOCKED change -/

@[simp] theorem State.cfgWrite_params (c : CfgRegs) (s : State) : (s.cfgWrite c).params = s.params := by
  unfold State.cfgWrite; split <;> rfl
@[simp] theorem State.cfgWrite_arg (c : CfgRegs) (s : State) : (s.cfgWrite c).arg = s.arg := by
  unfold State.cfgWrite; split <;> rfl
@[simp] theorem State.cfgWrite_resCrc (c : CfgRegs) (s : State) : (s.cfgWrite c).resCrc = s.resCrc := by
  unfold State.cfgWrite; split <;> rfl
@[simp] theorem State.cfgWrite_resLen (c : CfgRegs) (s : State) : (s.cfgWrite c).resLen = s.resLen := by
  unfold State.cfgWrite; split <;> rfl
@[simp] theorem State.cfgWrite_resTrailIfg (c : CfgRegs) (s : State) : (s.cfgWrite c).resTrailIfg = s.resTrailIfg := by
  unfold State.cfgWrite; split <;> rfl
@[simp] theorem State.cfgWrite_phase (c : CfgRegs) (s : State) : (s.cfgWrite c).phase = s.phase := by
  unfold State.cfgWrite; split <;> rfl
@[simp] theorem State.cfgWrite_err (c : CfgRegs) (s : State) : (s.cfgWrite c).err = s.err := by
  unfold State.cfgWrite; split <;> rfl
@[simp] theorem State.cfgWrite_lerr (c : CfgRegs) (s : State) : (s.cfgWrite c).lerr = s.lerr := by
  unfold State.cfgWrite; split <;> rfl
@[simp] theorem State.cfgWrite_plan (c : CfgRegs) (s : State) : (s.cfgWrite c).plan = s.plan := by
  unfold State.cfgWrite; split <;> rfl
@[simp] theorem State.cfgWrite_packetNo (c : CfgRegs) (s : State) : (s.cfgWrite c).packetNo = s.packetNo := by
  unfold State.cfgWrite; split <;> rfl
@[simp] theorem State.cfgWrite_emitted (c : CfgRegs) (s : State) : (s.cfgWrite c).emitted = s.emitted := by
  unfold State.cfgWrite; split <;> rfl
@[simp] theorem State.cfgWrite_ids (c : CfgRegs) (s : State) : (s.cfgWrite c).ids = s.ids := by
  unfold State.cfgWrite; split <;> rfl
@[simp] theorem State.cfgWrite_iqScratch (c : CfgRegs) (s : State) : (s.cfgWrite c).iqScratch = s.iqScratch := by
  unfold State.cfgWrite; split <;> rfl
@[simp] theorem State.cfgWrite_pool (c : CfgRegs) (s : State) : (s.cfgWrite c).pool = s.pool := by
  unfold State.cfgWrite; split <;> rfl
@[simp] theorem State.cfgWrite_scr (c : CfgRegs) (s : State) : (s.cfgWrite c).scr = s.scr := by
  unfold State.cfgWrite; split <;> rfl
@[simp] theorem State.cfgWrite_out (c : CfgRegs) (s : State) : (s.cfgWrite c).out = s.out := by
  unfold State.cfgWrite; split <;> rfl
@[simp] theorem State.cfgWrite_script (c : CfgRegs) (s : State) : (s.cfgWrite c).script = s.script := by
  unfold State.cfgWrite; split <;> rfl
@[simp] theorem State.cfgWrite_answers (c : CfgRegs) (s : State) : (s.cfgWrite c).answers = s.answers := by
  unfold State.cfgWrite; split <;> rfl

theorem State.cfgWrite_idle (c : CfgRegs) (s : State) (h : s.phase = .idle) : s.cfgWrite c = { s with cfg := c } := by
  simp [State.cfgWrite, h]

theorem State.cfgWrite_locked (c : CfgRegs) (s : State) (h : s.phase ≠ .idle) : s.cfgWrite c = s.lockSet := by
  simp [State.cfgWrite, h]

end Sys2Proof.Machine
end

