-- ==== Sys2Proof/Laws/Ops.lean ====
section
/-! SUPPORT. One lemma for each shared operation: everything it can answer. A proof about a command or a step cites these instead of unfolding. -/

namespace Sys2Proof.Machine

/-! ### Single octets -/

/-- What a read of one octet of a space answers (R60, R64). -/
theorem State.readOctet_cases (s : State) (sp : OctetSpace) (a : Nat) :
    (∃ b, s.readOctet sp a = .ok b ∧ a < s.cap sp ∧ Mem.read (s.mem sp) a = some b) ∨
      (s.readOctet sp a = .error .unwrittenOctet ∧ (s.cap sp ≤ a ∨ Mem.read (s.mem sp) a = none)) := by
  unfold State.readOctet
  by_cases h : a < s.cap sp
  · simp only [h, if_true, true_and]
    cases hr : Mem.read (s.mem sp) a <;> simp
  · simp only [h, if_false, true_and]; right; left; omega

/-! ### Sequencer commands -/

/-- A sequencer command's body ends in a next state in two ways: it is done, or it raised an error, which enters phase ERROR (R205). -/
theorem Body.outcome_eq_next {b : Body} {t : State} :
    b.outcome = .next t ↔ b = .done t ∨ ∃ c s, b = .raised c s ∧ t = s.sequencerError c := by
  cases b <;> simp [Body.outcome, eq_comm]

theorem Body.outcome_not_refused (b : Body) (r : Refusal) : b.outcome ≠ .refused r := by
  cases b <;> simp [Body.outcome]

/-- What a sequencer command under a legality answers (R180, R194). -/
theorem sequencerCommand_eq_next {l : Legality} {body : State → Body} {s t : State} :
    sequencerCommand l body s = .next t ↔
      (l = .runs ∧ (body s).outcome = .next t) ∨ (l = .illegal ∧ t = s.illegalCommand) ∨ (l = .ignored ∧ t = s) := by
  cases l <;> simp [sequencerCommand, eq_comm]

theorem planLegality_runs (s : State) : planLegality s = .runs ↔ s.phase = .idle := by
  unfold planLegality; split <;> simp_all

theorem stepLegality_runs (s : State) :
    stepLegality s = .runs ↔
      s.phase = .planned ∨ (s.phase = .running ∧ s.packetNo.toNat < s.plan.totalPackets.toNat) := by
  unfold stepLegality; split <;> simp_all

theorem runLegality_runs (s : State) : runLegality s = .runs ↔ s.phase = .planned ∨ s.phase = .running := by
  unfold runLegality; split <;> simp_all

theorem finishLegality_runs (s : State) :
    finishLegality s = .runs ↔ s.phase = .running ∧ s.packetNo = s.plan.totalPackets := by
  unfold finishLegality; split <;> simp_all

/-- In phase ERROR every one of them is ignored, and only there (R180, R208). -/
theorem legality_ignored (s : State) :
    (planLegality s = .ignored ↔ s.phase = .error) ∧ (stepLegality s = .ignored ↔ s.phase = .error) ∧
      (runLegality s = .ignored ↔ s.phase = .error) ∧ (finishLegality s = .ignored ↔ s.phase = .error) := by
  refine ⟨?_, ?_, ?_, ?_⟩
  · unfold planLegality; split <;> simp_all
  · unfold stepLegality; split <;> (try split) <;> simp_all
  · unfold runLegality; split <;> simp_all
  · unfold finishLegality; split <;> (try split) <;> simp_all

/-! ### The assembler -/

/-- `n` pool octets from a cursor on (R182, R183). -/
theorem State.poolOctets_eq_ok (s : State) (k n : Nat) (bs : List Octet) :
    s.poolOctets k n = .ok bs ↔ bs.length = n ∧ ∀ j (h : j < bs.length), s.poolOctet (k + j) = .ok bs[j] := by
  induction n generalizing k bs with
  | zero => cases bs <;> simp [State.poolOctets]
  | succ n ih =>
    rw [State.poolOctets]
    constructor
    · intro h
      split at h
      next => cases h
      next b hb =>
        split at h
        next => cases h
        next cs hcs =>
          obtain rfl := Except.ok.inj h
          obtain ⟨hl, hk⟩ := (ih _ _).1 hcs
          refine ⟨by simp [hl], fun j hj => ?_⟩
          cases j with
          | zero => simpa using hb
          | succ j =>
            have := hk j (by simpa using hj)
            rw [show k + (j + 1) = k + 1 + j by omega]; simpa using this
    · rintro ⟨hl, hk⟩
      cases bs with
      | nil => simp at hl
      | cons b cs =>
        have h0 := hk 0 (by simp)
        have h1 : s.poolOctets (k + 1) n = .ok cs := by
          refine (ih _ _).2 ⟨by simpa using hl, fun j hj => ?_⟩
          have := hk (j + 1) (by simpa using hj)
          rw [show k + 1 + j = k + (j + 1) by omega]; simpa using this
        simp only [Nat.add_zero, List.getElem_cons_zero] at h0
        rw [h0, h1]

theorem State.iqSlice_length {s : State} {p : Nat} {iq : List Octet} (h : s.iqSlice p = .ok iq) :
    iq.length = s.plan.iqPerPkt.toNat := ((State.poolOctets_eq_ok _ _ _ _).1 h).1

/-- The payload of a packet does not depend on the counters or the scratch buffer (R182, R183). -/
theorem State.poolOctets_congr {s t : State} (hp : t.params = s.params) (hc : t.cfg = s.cfg) (hl : t.plan = s.plan)
    (hm : t.pool = s.pool) (k n : Nat) : t.poolOctets k n = s.poolOctets k n := by
  have h1 : ∀ k, t.poolOctet k = s.poolOctet k := fun k => by
    cases s; cases t; dsimp only at hp hc hl hm; subst hp hc hl hm; rfl
  induction n generalizing k with
  | zero => rfl
  | succ n ih => simp only [State.poolOctets, h1, ih]

/-- What STEP's body comes to (R190): a fault of the slice, an error of the builders, or the frame emitted. -/
theorem stepBody_cases (s : State) :
    (∃ f, s.iqSlice s.packetNo.toNat = .error f ∧ stepBody s = .faulted f) ∨
      ∃ iq, s.iqSlice s.packetNo.toNat = .ok iq ∧
        ((∃ c, (s.sliced iq).buildPacket iq = .error c ∧ stepBody s = .raised c (s.sliced iq)) ∨
          ∃ fr, (s.sliced iq).buildPacket iq = .ok fr ∧ stepBody s = .done ((s.sliced iq).frameEmitted fr)) := by
  unfold stepBody
  cases h : s.iqSlice s.packetNo.toNat with
  | error f => exact .inl ⟨f, rfl, rfl⟩
  | ok iq =>
    refine .inr ⟨iq, rfl, ?_⟩
    cases hb : (s.sliced iq).buildPacket iq with
    | error c => exact .inl ⟨c, rfl, by simp [hb]⟩
    | ok fr => exact .inr ⟨fr, rfl, by simp [hb]⟩

/-- What FINISH's body comes to (R192). -/
theorem finishBody_cases (s : State) :
    (s.plan.totalBytes.toNat < s.emitted.toNat ∧ finishBody s = .raised .planInfeasible s) ∨
      (s.emitted.toNat ≤ s.plan.totalBytes.toNat ∧
        finishBody s = .done (s.finished (s.plan.totalBytes.toNat - s.emitted.toNat))) := by
  unfold finishBody
  by_cases h : s.emitted.toNat > s.plan.totalBytes.toNat
  · exact .inl ⟨h, if_pos h⟩
  · exact .inr ⟨by omega, if_neg h⟩

/-- What PLAN's body comes to (R171). -/
theorem planBody_cases (s : State) :
    (∃ c, planChecks s.params s.cfg = .error c ∧ planBody s = .raised c s) ∨
      ∃ v, planChecks s.params s.cfg = .ok v ∧ planBody s = .done (s.planned v.toRegs) := by
  unfold planBody
  cases h : planChecks s.params s.cfg with
  | error c => exact .inl ⟨c, rfl, rfl⟩
  | ok v => exact .inr ⟨v, rfl, rfl⟩

/-- A property of states that STEP's body and FINISH's body keep is kept by RUN's loop (R191). -/
theorem runLoop_induction (P : State → Prop) (Q : Body → Prop)
    (hstep : ∀ s, P s → (∃ t, stepBody s = .done t ∧ P t) ∨ ((∀ t, stepBody s ≠ .done t) ∧ Q (stepBody s)))
    (hfinish : ∀ s, P s → Q (finishBody s)) (n : Nat) (s : State) (h : P s) : Q (runLoop n s) := by
  induction n generalizing s with
  | zero => exact hfinish s h
  | succ n ih =>
    rw [runLoop]
    rcases hstep s h with ⟨t, e, ht⟩ | ⟨hn, hq⟩
    · rw [e]; exact ih t ht
    · cases hb : stepBody s with
      | done t => exact absurd hb (hn t)
      | raised c t => rw [hb] at hq; exact hq
      | faulted f => rw [hb] at hq; exact hq

/-! ### Builder commands -/

/-- Everything a builder command can answer: a unit error, with LERR alone changed (R207); the fault of an unwritten source octet; or the
packet written (R133, R142, R155). -/
theorem runBuilder_cases (check : Option ErrCode) (build : List Octet → Except ErrCode (List Octet))
    (record : List Octet → State → State) (s : State) :
    (∃ c, runBuilder check build record s = .next (s.unitError c)) ∨
      (runBuilder check build record s = .fault .unwrittenOctet ∧ check = none ∧
        Mem.readRange s.scr s.srcOperand s.lenOperand = none) ∨
      ∃ input pkt, check = none ∧ Mem.readRange s.scr s.srcOperand s.lenOperand = some input ∧ build input = .ok pkt ∧
        s.srcOperand + s.lenOperand ≤ s.params.scrCap ∧ s.dstOperand + pkt.length ≤ s.params.scrCap ∧
        runBuilder check build record s = .next (record input (s.writeBuilt s.dstOperand pkt)) := by
  unfold runBuilder
  cases hs : s.scrHolds s.srcOperand s.lenOperand with
  | false => exact .inl ⟨_, rfl⟩
  | true =>
    simp only [if_true]
    cases check with
    | some c => exact .inl ⟨c, rfl⟩
    | none =>
      cases hr : Mem.readRange s.scr s.srcOperand s.lenOperand with
      | none => exact .inr (.inl ⟨rfl, rfl, rfl⟩)
      | some input =>
        cases hb : build input with
        | error c => exact .inl ⟨c, by simp [hb]⟩
        | ok pkt =>
          cases hd : s.scrHolds s.dstOperand pkt.length with
          | false => exact .inl ⟨.resourceExceeded, by simp [hb, hd]⟩
          | true =>
            refine .inr (.inr ⟨input, pkt, rfl, rfl, hb, ?_, ?_, by simp [hb, hd]⟩)
            · simpa [State.scrHolds] using hs
            · simpa [State.scrHolds] using hd

/-- Everything CRC32 can answer (R123). -/
theorem execCrc32_cases (s : State) :
    (∃ c, execCrc32 s = .next (s.unitError c)) ∨
      (execCrc32 s = .fault .unwrittenOctet ∧ Mem.readRange s.scr s.srcOperand s.lenOperand = none) ∨
      ∃ input, Mem.readRange s.scr s.srcOperand s.lenOperand = some input ∧ s.lenOperand ≠ 0 ∧
        s.srcOperand + s.lenOperand ≤ s.params.scrCap ∧
        execCrc32 s = .next { s with resCrc := crc32 input, lerr := .noError } := by
  unfold execCrc32
  by_cases h0 : s.lenOperand = 0
  · exact .inl ⟨_, by rw [if_pos h0]⟩
  · rw [if_neg h0]
    cases hs : s.scrHolds s.srcOperand s.lenOperand with
    | false => exact .inl ⟨_, rfl⟩
    | true =>
      cases hr : Mem.readRange s.scr s.srcOperand s.lenOperand with
      | none => exact .inr (.inl ⟨rfl, rfl⟩)
      | some input => exact .inr (.inr ⟨input, rfl, h0, by simpa [State.scrHolds] using hs, rfl⟩)

/-! ### Commands and host events -/

/-- No command is refused. -/
theorem exec_not_refused (i : Instr) (s : State) (r : Refusal) : exec i s ≠ .refused r := by
  have hseq : ∀ l body, sequencerCommand l body s ≠ .refused r := fun l body => by
    cases l <;> simp [sequencerCommand, Body.outcome_not_refused]
  have hb : ∀ c b rec, runBuilder c b rec s ≠ .refused r := fun c b rec => by
    rcases runBuilder_cases c b rec s with ⟨_, e⟩ | ⟨e, -⟩ | ⟨_, _, -, -, -, -, -, e⟩ <;> rw [e] <;> simp
  cases i with
  | clear => simp [exec, execClear]
  | plan => exact hseq _ _
  | step => exact hseq _ _
  | run => exact hseq _ _
  | finish => exact hseq _ _
  | crc32 => rcases execCrc32_cases s with ⟨_, e⟩ | ⟨e, -⟩ | ⟨_, -, -, -, e⟩ <;> rw [exec, e] <;> simp
  | oranBuild => rw [exec]; exact hb _ _ _
  | ecpriBuild => rw [exec]; exact hb _ _ _
  | ethBuild => rw [exec]; exact hb _ _ _

/-- Everything a CMD write can do (R28, R93, R194). -/
theorem issueCommand_cases (w : Word) (s : State) :
    (∃ i, decode w = .ok i ∧ issueCommand w s = exec i s) ∨
      (∃ e, decode w = .error e ∧ issueCommand w s = .next s.illegalCommand) := by
  unfold issueCommand
  cases h : decode w with
  | ok i => exact .inl ⟨i, rfl, rfl⟩
  | error e => exact .inr ⟨e, rfl, rfl⟩

/-- A host write of one octet always completes (R72). -/
theorem octetWrite_next (sp : OctetSpace) (a : Nat) (b : Octet) (s : State) : ∃ t, octetWrite sp a b s = .next t := by
  unfold octetWrite
  cases sp <;> dsimp only <;> (repeat' split) <;> exact ⟨_, rfl⟩

/-- Everything a host write of one octet can do (R60, R68, R72). -/
theorem octetWrite_eq_next {sp : OctetSpace} {a : Nat} {b : Octet} {s t : State} (h : octetWrite sp a b s = .next t) :
    (s.cap sp ≤ a ∧ t = s) ∨
      a < s.cap sp ∧
      ((sp = .pool ∧ s.phase = .idle ∧ t = { s with pool := Mem.writeRange s.pool a [b] }) ∨
        (sp = .pool ∧ s.phase ≠ .idle ∧ t = s.lockSet) ∨
        (sp = .scr ∧ t = { s with scr := Mem.writeRange s.scr a [b] }) ∨
        (sp = .out ∧ t = s)) := by
  unfold octetWrite at h
  split at h
  next hc =>
    refine .inr ⟨hc, ?_⟩
    cases sp with
    | pool =>
      dsimp only at h
      split at h
      next hp => exact .inl ⟨rfl, hp, (Host.Outcome.next.inj h).symm⟩
      next hp => exact .inr (.inl ⟨rfl, hp, (Host.Outcome.next.inj h).symm⟩)
    | scr => exact .inr (.inr (.inl ⟨rfl, (Host.Outcome.next.inj h).symm⟩))
    | out => exact .inr (.inr (.inr ⟨rfl, (Host.Outcome.next.inj h).symm⟩))
  next hc => exact .inl ⟨Nat.le_of_not_lt hc, (Host.Outcome.next.inj h).symm⟩

/-- A host read of one octet changes nothing but what the host received (R72). -/
theorem octetRead_eq_next {sp : OctetSpace} {a : Nat} {s t : State} (h : octetRead sp a s = .next t) :
    ∃ b, s.hostOctet sp a = .ok b ∧ t = s.answer (.octet b) := by
  unfold octetRead at h
  split at h
  next b hb => exact ⟨b, hb, (Host.Outcome.next.inj h).symm⟩
  next => cases h

/-- A register write other than to CMD changes the CFG_ registers in IDLE, the ARG_ registers, or LOCKED, or nothing (R21, R39, R40). -/
theorem State.regWrite_cases (s : State) (v : Word) (r : Reg) :
    (∃ c, s.phase = .idle ∧ s.regWrite v r = { s with cfg := c }) ∨ (s.phase ≠ .idle ∧ s.regWrite v r = s.lockSet) ∨
      (∃ a, s.regWrite v r = { s with arg := a }) ∨ s.regWrite v r = s := by
  have hcfg : ∀ c, (∃ c', s.phase = .idle ∧ s.cfgWrite c = { s with cfg := c' }) ∨ (s.phase ≠ .idle ∧ s.cfgWrite c = s.lockSet) :=
    fun c => by
      by_cases h : s.phase = .idle
      · exact .inl ⟨c, h, s.cfgWrite_idle c h⟩
      · exact .inr ⟨h, s.cfgWrite_locked c h⟩
  have hc : ∀ c, (∃ c', s.phase = .idle ∧ s.cfgWrite c = { s with cfg := c' }) ∨ (s.phase ≠ .idle ∧ s.cfgWrite c = s.lockSet) ∨
      (∃ a, s.cfgWrite c = { s with arg := a }) ∨ s.cfgWrite c = s := fun c => (hcfg c).imp id .inl
  cases r
  case status | cmd | resCrc | resLen | resTrailIfg | outLen | pktNo => exact .inr (.inr (.inr rfl))
  case planTotalBytes | planFramesRadio | planSlotsPerSf | planPktsPerSymbol | planPktsPerSlot | planPktsPerSubframe |
      planPktsPerFrame | planTotalPackets | planIqPerPkt | planMaxNrb | planNrbPerPkt | planPoolLen | planFrameLen =>
    exact .inr (.inr (.inr rfl))
  case argSrc | argLen | argDst | argFrame | argSubframe | argSlot | argSymbol | argStartPrbu | argNumPrbu | argSeq | argEther =>
    exact .inr (.inr (.inl ⟨_, rfl⟩))
  all_goals exact hc _

/-- Everything a register write can do (R21, R28). -/
theorem indexWrite_cases (i : Fin 64) (v : Word) (s : State) :
    (i = 1 ∧ indexWrite i v s = issueCommand v s) ∨
      (i ≠ 1 ∧ ∃ r, regAt i = some r ∧ indexWrite i v s = .next (s.regWrite v r)) ∨
      (i ≠ 1 ∧ regAt i = none ∧ indexWrite i v s = .next s) := by
  have h1 : ∀ j : Fin 64, regAt j = some .cmd → j = 1 := by decide
  unfold indexWrite
  cases hr : regAt i with
  | none => exact .inr (.inr ⟨by rintro rfl; exact absurd hr (by decide), rfl, rfl⟩)
  | some r =>
    by_cases hc : r = .cmd
    · subst hc; exact .inl ⟨h1 i hr, rfl⟩
    · have hi : i ≠ 1 := by
        rintro rfl
        have e : regAt 1 = some .cmd := by decide
        exact hc (Option.some.inj (hr.symm.trans e))
      refine .inr (.inl ⟨hi, r, rfl, ?_⟩)
      cases r <;> first | rfl | exact absurd rfl hc

/-- Everything a step can do: hold the state, or perform the host's next event. -/
theorem step_cases (s : State) :
    (s.script = [] ∧ step s = .next s) ∨ ∃ e es, s.script = e :: es ∧ step s = perform e s.popEvent := by
  unfold step
  cases h : s.script with
  | nil => exact .inl ⟨rfl, rfl⟩
  | cons e es => exact .inr ⟨e, es, rfl, rfl⟩

end Sys2Proof.Machine
end

