-- ==== Sys2Proof/Laws/PerInstr.lean ====
section
/-! SUPPORT. The per-command family of LAWS.json: what the encoding of a command is (R90 to R92). -/

namespace Sys2Proof.Laws.EncodedWord

/-- The command word of a command is legal, its OPC is the command's opcode, and its RSV is 0. -/
def Statement (i : Instr) : Prop :=
  CommandWord.wf (encode i) = true ∧ opcOf (encode i) = opcodeOf i ∧ rsvOf (encode i) = 0

theorem clear : Statement .clear := by unfold Statement; decide
theorem plan : Statement .plan := by unfold Statement; decide
theorem step : Statement .step := by unfold Statement; decide
theorem run : Statement .run := by unfold Statement; decide
theorem finish : Statement .finish := by unfold Statement; decide
theorem crc32 : Statement .crc32 := by unfold Statement; decide
theorem oranBuild : Statement .oranBuild := by unfold Statement; decide
theorem ecpriBuild : Statement .ecpriBuild := by unfold Statement; decide
theorem ethBuild : Statement .ethBuild := by unfold Statement; decide

end Sys2Proof.Laws.EncodedWord
end

