-- ==== Sys2Proof/Laws/Planner.lean ====
section
/-! SUPPORT. What a successful PLAN says of the plan (R160 to R172), as arithmetic on the PLAN_ registers. -/

namespace Sys2Proof.Machine

theorem normalizePrb_pos (v : Word) : 1 ≤ normalizePrb v := by
  unfold normalizePrb maxPrbs
  split
  · omega
  next h =>
    have : v.toNat ≠ 0 := fun e => h (BitVec.eq_of_toNat_eq (by simpa using e))
    omega

theorem normalizePrb_le {v : Word} (h : v.toNat ≤ 273) : normalizePrb v ≤ 273 := by
  unfold normalizePrb maxPrbs; split <;> omega

/-- `ceil_div` is the least number of blocks of b that reach a (R11, R164). -/
theorem ceilDiv_bounds {a b : Nat} (hb : 1 ≤ b) (ha : 1 ≤ a) :
    1 ≤ ceilDiv a b ∧ (ceilDiv a b - 1) * b < a ∧ a ≤ ceilDiv a b * b := by
  unfold ceilDiv
  have h1 : b * ((a + b - 1) / b) ≤ a + b - 1 := Nat.mul_div_le _ _
  have h2 : a + b - 1 < b * ((a + b - 1) / b) + b := Nat.lt_mul_div_succ _ hb
  have h3 : 1 ≤ (a + b - 1) / b := (Nat.one_le_div_iff hb).2 (by omega)
  generalize (a + b - 1) / b = q at *
  refine ⟨h3, ?_, ?_⟩
  · rw [Nat.sub_mul, Nat.one_mul, Nat.mul_comm]; omega
  · rw [Nat.mul_comm]; omega

/-- Everything the checks of R167 let through. -/
theorem planChecks_eq_ok {p : Params} {c : CfgRegs} {v : PlanValues} :
    planChecks p c = .ok v ↔
      v = planValues c ∧ (c.payloadType = 1 ∨ c.payloadType = 2) ∧ cfgOutOfRange c = false ∧
        c.scs.toNat ≠ 0 ∧ c.scs.toNat % 15 = 0 ∧ c.captureMs.toNat ≠ 0 ∧ c.captureMs.toNat % 10 = 0 ∧
        normalizePrb c.nrbPerPkt ≤ normalizePrb c.maxNrb ∧ planTooWide (planValues c) = false ∧ poolUnusable p c = false ∧
        (planValues c).totalBytes ≤ p.outCap := by
  unfold planChecks
  constructor
  · intro h
    split at h; · cases h
    split at h; · cases h
    split at h; · cases h
    split at h; · cases h
    split at h; · cases h
    split at h; · cases h
    split at h; · cases h
    split at h; · cases h
    have e := (Except.ok.inj h).symm
    refine ⟨e, by tauto, by simp_all, by tauto, by tauto, by tauto, by tauto, by omega, by simp_all, by simp_all, by omega⟩
  · rintro ⟨rfl, h1, h2, h3, h4, h5, h6, h7, h8, h9, h10⟩
    rw [if_neg (by tauto), if_neg (by simp [h2]), if_neg (by tauto), if_neg (by tauto), if_neg (by omega), if_neg (by simp [h8]),
      if_neg (by simp [h9]), if_neg (by omega)]

theorem planOk_iff (s : State) :
    s.planOk = true ↔ ∃ v, planChecks s.params s.cfg = .ok v ∧ s.plan = v.toRegs := by
  unfold State.planOk
  cases planChecks s.params s.cfg <;> simp

/-- The plan of a successful PLAN, as arithmetic: the periods of R165 between the registers, the bounds of R160, R164, R166, R169 and R170, the frame
length of R172. -/
structure PlanFacts (s : State) : Prop where
  nrb_pos : 1 ≤ s.plan.nrbPerPkt.toNat
  nrb_le : s.plan.nrbPerPkt.toNat ≤ s.plan.maxNrb.toNat
  max_le : s.plan.maxNrb.toNat ≤ 273
  pps_pos : 1 ≤ s.plan.pktsPerSymbol.toNat
  pps_lower : (s.plan.pktsPerSymbol.toNat - 1) * s.plan.nrbPerPkt.toNat < s.plan.maxNrb.toNat
  pps_upper : s.plan.maxNrb.toNat ≤ s.plan.pktsPerSymbol.toNat * s.plan.nrbPerPkt.toNat
  slot_eq : s.plan.pktsPerSlot.toNat = s.plan.pktsPerSymbol.toNat * 14
  slots_pos : 1 ≤ s.plan.slotsPerSf.toNat
  subframe_eq : s.plan.pktsPerSubframe.toNat = s.plan.pktsPerSlot.toNat * s.plan.slotsPerSf.toNat
  frame_eq : s.plan.pktsPerFrame.toNat = s.plan.pktsPerSubframe.toNat * 10
  frames_pos : 1 ≤ s.plan.framesRadio.toNat
  total_eq : s.plan.totalPackets.toNat = s.plan.pktsPerFrame.toNat * s.plan.framesRadio.toNat
  iq_eq : s.plan.iqPerPkt.toNat = 28 * s.plan.nrbPerPkt.toNat
  ifg_le : s.cfg.minIfg.toNat ≤ 255
  frameLen_eq : s.plan.frameLen.toNat = frameLen (16 + s.plan.iqPerPkt.toNat) s.cfg.minIfg.toNat
  bytes_le : s.plan.totalBytes.toNat ≤ s.params.outCap
  pool_eq : s.cfg.payloadType = 1 → s.plan.poolLen = s.cfg.poolLen ∧ 2 ≤ s.plan.poolLen.toNat ∧
    s.plan.poolLen.toNat ≤ s.params.poolCap
  payload : s.cfg.payloadType = 1 ∨ s.cfg.payloadType = 2

theorem planFacts {s : State} (h : s.planOk = true) : PlanFacts s := by
  obtain ⟨v, hv, hp⟩ := (planOk_iff s).1 h
  obtain ⟨rfl, hpt, hr, hs0, hs15, hc0, hc10, hNM, hw, hpool, hout⟩ := planChecks_eq_ok.1 hv
  simp only [cfgOutOfRange, maxPrbs, Bool.or_eq_false_iff, decide_eq_false_iff_not, Nat.not_lt, gt_iff_lt] at hr
  obtain ⟨⟨⟨⟨hL, hC⟩, hG⟩, hM⟩, hN⟩ := hr
  simp only [planTooWide, wordLimit, Bool.or_eq_false_iff, decide_eq_false_iff_not, Nat.not_le, ge_iff_le] at hw
  obtain ⟨⟨⟨⟨hwB, hwP⟩, hwF⟩, hwT⟩, hwI⟩ := hw
  have hn1 := normalizePrb_pos s.cfg.nrbPerPkt
  have hm1 := normalizePrb_pos s.cfg.maxNrb
  have hm273 := normalizePrb_le hM
  obtain ⟨c1, c2, c3⟩ := ceilDiv_bounds hn1 hm1
  have hcle : ceilDiv (normalizePrb s.cfg.maxNrb) (normalizePrb s.cfg.nrbPerPkt) ≤ 273 := by
    have : (ceilDiv (normalizePrb s.cfg.maxNrb) (normalizePrb s.cfg.nrbPerPkt) - 1) * 1 ≤
        (ceilDiv (normalizePrb s.cfg.maxNrb) (normalizePrb s.cfg.nrbPerPkt) - 1) * normalizePrb s.cfg.nrbPerPkt :=
      Nat.mul_le_mul_left _ hn1
    omega
  have hfl : frameLen (16 + 28 * normalizePrb s.cfg.nrbPerPkt) s.cfg.minIfg.toNat < 2 ^ 64 := by
    unfold frameLen
    have := padCount_lt (26 + (16 + 28 * normalizePrb s.cfg.nrbPerPkt) + s.cfg.minIfg.toNat)
    omega
  have hS := s.cfg.scs.isLt
  have small : ∀ n, n < 2 ^ 64 → (BitVec.ofNat 64 n).toNat = n := fun n hn => by rw [BitVec.toNat_ofNat]; exact Nat.mod_eq_of_lt hn
  simp only [planValues, symbolsPerSlot, subframesPerFrame, iqOctetsPerPrb] at hwB hwP hwF hwT hwI hout hp
  simp only [PlanValues.toRegs] at hp
  constructor <;> try simp only [hp]
  · rw [small _ (by omega)]; exact hn1
  · rw [small _ (by omega), small _ (by omega)]; exact hNM
  · rw [small _ (by omega)]; exact hm273
  · rw [small _ (by omega)]; exact c1
  · rw [small _ (by omega), small _ (by omega), small _ (by omega)]; exact c2
  · rw [small _ (by omega), small _ (by omega), small _ (by omega)]; exact c3
  · rw [small _ (by omega), small _ (by omega)]
  · rw [small _ (by omega)]; omega
  · rw [small _ hwP, small _ (by omega), small _ (by omega)]
  · rw [small _ hwF, small _ hwP]
  · rw [small _ (by omega)]; omega
  · rw [small _ hwT, small _ hwF, small _ (by omega)]
  · rw [small _ (by omega), small _ (by omega)]
  · exact hG
  · rw [small _ (by omega), small _ (by omega)]
  · rw [small _ hwB]; exact hout
  · intro h1
    have hf : s.cfg.fixedMode = true := by simp [CfgRegs.fixedMode, h1]
    simp only [poolUnusable, hf, Bool.true_and, Bool.or_eq_false_iff, decide_eq_false_iff_not] at hpool
    obtain ⟨⟨a, b⟩, c⟩ := hpool
    simp only [hf, if_true]
    refine ⟨by simp, ?_, ?_⟩ <;> rw [small _ s.cfg.poolLen.isLt] <;> omega
  · exact hpt

end Sys2Proof.Machine
end

