-- ==== Sys2Proof/Tests/Slice0.lean ====
section
/-! SUPPORT. Tests: the well-formedness smoke, every command's word, one step of each command on vectors of spec/95_test_vectors.md, and for each
statement with hypotheses a state that meets them. -/

namespace Sys2Proof.Tests

open Sys2Proof Sys2Proof.Machine

-- One theorem at a time: many waiting kernel checks would each hold a thread and its stack.
set_option Elab.async false

/-! ### Helpers -/

/-- What `f` says of the next state, none where there is none. -/
def after {α : Type} (o : Host.Outcome State Fault Refusal) (f : State → α) : Option α :=
  match o with
  | .next t => some (f t)
  | .fault _ => none
  | .refused _ => none

/-- An outcome of which `after` tells something is a next state. -/
theorem exists_next {α : Type} {o : Host.Outcome State Fault Refusal} {f : State → α} (h : (after o f).isSome = true) :
    ∃ t, o = .next t := by
  cases o with
  | next t => exact ⟨t, rfl⟩
  | fault f => simp [after] at h
  | refused r => simp [after] at h

/-- The fault of an outcome. -/
def faultOf : Host.Outcome State Fault Refusal → Option Fault
  | .fault f => some f
  | .next _ => none
  | .refused _ => none

/-- The state a command leaves, the state itself where it has no next state. -/
def then' (i : Instr) (s : State) : State := (after (exec i s) id).getD s

/-- The reset state with the host's accesses in place. -/
def host (es : List HostEvent) : State := { State.reset with script := es }

/-- The configuration of program P3 (spec/95 section 4), one PRB a packet. -/
def smallCfg : CfgRegs :=
  { lineRate := 1, captureMs := 10, minIfg := 0, destMac := 0x0A0B0C0D0E0F, srcMac := 0x102030405060, maxPkt := 1500, scs := 15,
    maxNrb := 1, nrbPerPkt := 1, payloadType := 1, poolLen := 6, rngSeed := 0 }

/-- The base configuration of the run outcomes of spec/95 section 3.5. -/
def baseCfg : CfgRegs :=
  { lineRate := 1, captureMs := 10, minIfg := 12, destMac := 0x010101010101, srcMac := 0x333333333333, maxPkt := 9000, scs := 15,
    maxNrb := 273, nrbPerPkt := 273, payloadType := 1, poolLen := 2, rngSeed := 0 }

/-- S1 of spec/95 section 2.1. -/
def s1Cfg : CfgRegs := { baseCfg with lineRate := 10, maxPkt := 1500 }

/-- IDLE with a configuration and a pool. -/
def idle (c : CfgRegs) (pool : List Octet) : State := { State.reset with cfg := c, pool := cellsFrom 0 pool }

/-- PLANNED with a configuration and a pool. -/
def planned (c : CfgRegs) (pool : List Octet) : State := then' .plan (idle c pool)

/-- Program P3 after its PLAN. -/
def smallPlanned : State := planned smallCfg [1, 2, 3, 4, 5, 6]

/-- Program P3 after its first STEP. -/
def smallRunning : State := then' .step smallPlanned

/-- Program P3 with every packet counted and `n` octets of the budget left: a state for FINISH alone. -/
def smallAtEnd (n : Nat) : State :=
  { smallPlanned with phase := .running, packetNo := smallPlanned.plan.totalPackets, emitted := BitVec.ofNat 128 (1250000 - n) }

/-- Phase ERROR, after an illegal word. -/
def failed : State := { State.reset with phase := .error, err := .illegalCommand }

/-- Four octets in SCR and the operands of OR7 (spec/95 section 3.2). -/
def oranState : State :=
  { State.reset with
    scr := cellsFrom 0 [0x01, 0xFF, 0x7F, 0x80]
    arg := { ArgRegs.zero with len := 4, dst := 0x100, frame := 3, subframe := 5, slot := 37, symbol := 13, startPrbu := 341,
                               numPrbu := 273 } }

/-- The O-RAN packet of OR7. -/
def or7 : List Octet := [0x00, 0x03, 0x59, 0x4D, 0xFF, 0xF1, 0x55, 0x00, 0x01, 0xFF, 0x7F, 0x80]

/-- The eCPRI packet of EC4. -/
def ec4 : List Octet := [0x00, 0x00, 0x00, 0x0C, 0x00, 0x00, 0x12, 0x34] ++ or7

/-- The operands of EC4 (spec/95 section 3.3). -/
def ecpriState : State :=
  { State.reset with scr := cellsFrom 0x100 or7, arg := { ArgRegs.zero with src := 0x100, len := 12, dst := 0x200, seq := 0x1234 } }

/-- The operands of ET7 (spec/95 section 3.4). -/
def ethState : State :=
  { State.reset with
    cfg := { CfgRegs.zero with destMac := 0x010101010101, srcMac := 0x333333333333, minIfg := 12, maxPkt := 1500 }
    scr := cellsFrom 0x200 ec4
    arg := { ArgRegs.zero with src := 0x200, len := 20, dst := 0x300, ether := 20 } }

/-- "123456789" in SCR (vector CR1). -/
def crcState : State :=
  { State.reset with
    scr := cellsFrom 0 [0x31, 0x32, 0x33, 0x34, 0x35, 0x36, 0x37, 0x38, 0x39]
    arg := { ArgRegs.zero with len := 9 } }

/-! ### Well-formedness -/

theorem test_wellFormed_zero_word : CommandWord.wf 0 = false := by decide
theorem test_wellFormed_unknown_opcode : CommandWord.wf 0x14 = false := by decide
theorem test_wellFormed_reserved_bits : CommandWord.wf 0x102 = false := by decide
theorem test_wellFormed_legal_word : CommandWord.wf 0x13 = true := by decide
theorem test_wellFormed_empty_octets : (ScriptLine.wb .scr 0 []).wf = false := by decide
theorem test_wellFormed_empty_pool : (ScriptLine.loadPool []).wf = false := by decide
theorem test_wellFormed_unit_of_sequencer_command : (ScriptLine.unit .plan none none none).wf = false := by decide

/-! ### Command words, from the table of R91 -/

theorem test_decode_clear : decode (0x00000000000000#56 ++ 0b00000001#8) = .ok .clear := by decide
theorem test_decode_plan : decode (0x00000000000000#56 ++ 0b00000010#8) = .ok .plan := by decide
theorem test_decode_step : decode (0x00000000000000#56 ++ 0b00000011#8) = .ok .step := by decide
theorem test_decode_run : decode (0x00000000000000#56 ++ 0b00000100#8) = .ok .run := by decide
theorem test_decode_finish : decode (0x00000000000000#56 ++ 0b00000101#8) = .ok .finish := by decide
theorem test_decode_crc32 : decode (0x00000000000000#56 ++ 0b00010000#8) = .ok .crc32 := by decide
theorem test_decode_oranBuild : decode (0x00000000000000#56 ++ 0b00010001#8) = .ok .oranBuild := by decide
theorem test_decode_ecpriBuild : decode (0x00000000000000#56 ++ 0b00010010#8) = .ok .ecpriBuild := by decide
theorem test_decode_ethBuild : decode (0x00000000000000#56 ++ 0b00010011#8) = .ok .ethBuild := by decide
theorem test_decode_top_reserved_bit : decode (0x80000000000000#56 ++ 0b00000001#8) = .error .reservedBits := by decide
theorem test_encode_finish : encode .finish = 0x0000000000000005 := by decide
theorem test_table_word : decodeTableWord 64 0x11 = some .oranBuild := by decide
theorem test_table_word_illegal : decodeTableWord 64 0 = none := by decide
theorem test_fetch_word_runs : after (step (State.reset.withFetchWord 64 0x02)) State.statusWord = some 0x804 := by decide

/-! ### One step of each command -/

/-- CR1. -/
theorem test_crc32_check_value : after (exec .crc32 crcState) (fun t => (t.resCrc, t.lerr)) = some (0xCBF43926, .noError) := by
  decide +kernel
/-- CR12. -/
theorem test_crc32_range :
    after (exec .crc32 { crcState with arg := { crcState.arg with src := 65535, len := 2 } }) State.statusWord = some 0xB0000 := by
  decide +kernel
/-- OR7. -/
theorem test_oranBuild_packet :
    after (exec .oranBuild oranState) (fun t => (Mem.readRange t.scr 0x100 12, t.resLen)) = some (some or7, 12) := by decide +kernel
/-- 273 is rewritten, 274 overflows (program P2). -/
theorem test_oranBuild_overflow :
    after (exec .oranBuild { oranState with arg := { oranState.arg with numPrbu := 274 } }) State.statusWord = some 0x50000 := by
  decide +kernel
/-- EC4. -/
theorem test_ecpriBuild_packet :
    after (exec .ecpriBuild ecpriState) (fun t => (Mem.readRange t.scr 0x200 20, t.resLen)) = some (some ec4, 20) := by decide +kernel
/-- EC7. -/
theorem test_ecpriBuild_seq :
    after (exec .ecpriBuild { ecpriState with arg := { ecpriState.arg with seq := 0x10000 } }) State.statusWord = some 0xA0000 := by
  decide +kernel
/-- ET7: the FCS, the first IFG octet and the last padding octet. -/
theorem test_ethBuild_frame :
    after (exec .ethBuild ethState) (fun t => (Mem.readRange t.scr 0x32A 5, Mem.read t.scr 0x33B, t.resLen, t.resCrc)) =
      some (some [0xAF, 0xA4, 0xA8, 0x76, 0x07], some 0x07, 60, 0xAFA4A876) := by decide +kernel
/-- ET8. -/
theorem test_ethBuild_too_large :
    after (exec .ethBuild { ethState with cfg := { ethState.cfg with maxPkt := 59 } }) State.statusWord = some 0x70000 := by
  decide +kernel
/-- PL1. -/
theorem test_plan_s1 :
    after (exec .plan (idle s1Cfg [0, 0])) State.plan =
      some { totalBytes := 12500000, framesRadio := 1, slotsPerSf := 1, pktsPerSymbol := 1, pktsPerSlot := 14, pktsPerSubframe := 14,
             pktsPerFrame := 140, totalPackets := 140, iqPerPkt := 7644, maxNrb := 273, nrbPerPkt := 273, poolLen := 2,
             frameLen := 7700 } := by decide +kernel
/-- PL27. -/
theorem test_plan_first_check_wins :
    after (exec .plan (idle { s1Cfg with payloadType := 0, scs := 0 } [0, 0])) State.statusWord = some 0x804 := by decide +kernel
/-- Frame 0 of program P3: its FCS and padding. -/
theorem test_step_first_frame :
    after (exec .step smallPlanned) (fun t => (Mem.readRange t.out 66 6, t.packetNo, t.emitted, t.statusWord)) =
      some (some [0x67, 0xD5, 0x84, 0xDD, 0x07, 0x07], 1, 72, 2) := by decide +kernel
/-- Frame 1 of program P3: the sequence number, the symbol, the wrapped payload and the FCS. -/
theorem test_step_second_frame :
    after (exec .step smallRunning) (fun t => (Mem.readRange t.out 100 11, Mem.readRange t.out 138 4)) =
      some (some [0x00, 0x01, 0x00, 0x00, 0x00, 0x01, 0xFF, 0xF0, 0x00, 0x01, 0x05], some [0x74, 0xB3, 0x59, 0xD3]) := by
  decide +kernel
/-- PL-R5: a frame one octet over the limit. -/
theorem test_run_frame_too_large :
    after (exec .run (planned { smallCfg with maxPkt := 71 } [1, 2, 3, 4, 5, 6])) (fun t => (t.statusWord, t.packetNo)) =
      some (0x704, 0) := by decide +kernel
/-- R191: with every packet emitted RUN is FINISH alone. -/
theorem test_run_only_finishes :
    after (exec .run (smallAtEnd 4)) (fun t => (t.statusWord, t.indexRead 0x23, t.resTrailIfg)) = some (3, 1250000, 4) := by
  decide +kernel
/-- SQ2. -/
theorem test_finish_in_planned : after (exec .finish smallPlanned) State.statusWord = some 0xA04 := by decide +kernel
/-- R192: four trailing octets of 0x07. -/
theorem test_finish_trailing :
    after (exec .finish (smallAtEnd 4)) (fun t => Mem.readRange t.out 1249996 4) = some (some [0x07, 0x07, 0x07, 0x07]) := by
  decide +kernel
/-- SQ4. -/
theorem test_clear_after_step :
    after (exec .clear smallRunning) (fun t => (t.statusWord, t.indexRead 0x30, t.indexRead 0x23, t.indexRead 0x02)) =
      some (0, 0, 0, 1) := by decide +kernel
/-- R182: an unwritten octet of the pool. -/
theorem test_step_unwritten_pool : faultOf (exec .step (planned smallCfg [1, 2, 3])) = some .unwrittenOctet := by decide +kernel
/-- SQ7. -/
theorem test_locked_write :
    after (step { smallRunning with script := [.writeReg 0x02 2] }) (fun t => (t.statusWord, t.indexRead 0x02)) =
      some (0x1000002, 1) := by decide +kernel
/-- R84: four octets a line. -/
theorem test_hex_text : hexText 0 [0xFB, 0x55, 0x07, 0xD5, 0x0A] = "fb5507d5\n0a".toList := by decide

/-- Outside IDLE a POOL write past the space does nothing, LOCKED included (R72, log entry 6). -/
theorem test_write_outside_pool :
    after (step { failed with script := [.writeOctet .pool 1048576 9] }) (fun t => (t.pool, t.locked)) = some ([], false) := by decide
/-- A read past SCR is a read of an unwritten octet (R64, log entry 6). -/
theorem test_read_outside_scr : faultOf (step (host [.readOctet .scr 65536])) = some .unwrittenOctet := by decide

/-! ### Reset -/

theorem test_reset_memory_canonical : State.reset.memoriesWf = true := by decide

/-! ### States that meet the hypotheses of the statements -/

/-- A parked command event. -/
def cmd (i : Instr) : HostEvent := .writeReg 0x01 (encode i)

theorem test_witness_StepRunsDecodedCommand :
    (host [.writeReg 0x01 0x02]).script = .writeReg 0x01 0x02 :: [] ∧ decode 0x02 = .ok .plan := by decide

theorem test_witness_IllegalCommandsAreFatalOutsideError :
    ((host [.writeReg 0x01 0x102]).script = .writeReg 0x01 0x102 :: [] ∧ decode 0x102 = .error .reservedBits ∧ decode 0 = .error .unknownOpcode ∧
      State.reset.phase ≠ .error ∧ failed.phase = .error) ∧
    (smallPlanned.phase = .planned ∧ State.reset.phase = .idle ∧
      (smallAtEnd 4).phase = .running ∧ (smallAtEnd 4).plan.totalPackets.toNat ≤ (smallAtEnd 4).packetNo.toNat ∧
      smallRunning.phase = .running ∧ smallRunning.packetNo ≠ smallRunning.plan.totalPackets) := by decide +kernel

theorem test_witness_NoEventHoldsState : State.reset.script = [] := by decide

/-- Both ends of both writable ranges, a MAC register with bits above 47, and an index between the ranges. -/
theorem test_witness_RegisterFileReadsBackWrites :
    ∀ i ∈ ([0x02, 0x05, 0x06, 0x0D, 0x0E, 0x10, 0x1A, 0x1B, 0x3F] : List (Fin 64)),
      i ≠ 1 ∧ (host [.writeReg i 0xFFFFFFFFFFFFFFFF]).phase = .idle ∧
        (host [.writeReg i 0xFFFFFFFFFFFFFFFF]).script = .writeReg i 0xFFFFFFFFFFFFFFFF :: [] := by decide

/-- The first and the last entry of the table of CFG_ registers. -/
theorem test_witness_RegisterFileReadsBackWrites_fields :
    (host [.writeReg 0x02 7]).phase = .idle ∧ (host [.writeReg 0x02 7]).script = .writeReg 0x02 7 :: [] ∧
      (host [.writeReg 0x0D 7]).script = .writeReg 0x0D 7 :: [] := by decide

theorem test_witness_ArgWritesInEveryPhase :
    ∀ i ∈ ([0x10, 0x1A] : List (Fin 64)), 0x10 ≤ i.val ∧ i.val ≤ 0x1A ∧
      ({ failed with script := [.writeReg i 7] } : State).script = .writeReg i 7 :: [] := by decide

theorem test_witness_LockedWritesAreDropped :
    (∀ i ∈ ([0x02, 0x05, 0x06, 0x0D] : List (Fin 64)), 2 ≤ i.val ∧ i.val ≤ 0x0D ∧
      (host [.writeReg i 7]).script = .writeReg i 7 :: [] ∧ ({ failed with script := [.writeReg i 7] } : State).script = .writeReg i 7 :: []) ∧
    State.reset.phase = .idle ∧ failed.phase ≠ .idle ∧
    (∀ a ∈ [0, 1048575], a < State.reset.params.poolCap ∧ (host [.writeOctet .pool a 9]).script = .writeOctet .pool a 9 :: []) := by decide

theorem test_witness_OtherWritesDoNothing :
    (∀ i ∈ ([0x00, 0x0E, 0x0F, 0x1B, 0x3F] : List (Fin 64)), (i.val = 0x00 ∨ i.val = 0x0E ∨ i.val = 0x0F ∨ 0x1B ≤ i.val) ∧
      (host [.writeReg i 7]).script = .writeReg i 7 :: []) ∧
    (∀ x ∈ [(OctetSpace.out, 0), (.out, 7968749999), (.out, 7968750000), (.pool, 1048576), (.scr, 65536)],
      (x.1 = .out ∨ State.reset.cap x.1 ≤ x.2) ∧ (host [.writeOctet x.1 x.2 9]).script = .writeOctet x.1 x.2 9 :: []) := by decide

/-- The unlisted indices at the ends of their ranges, and an octet the host reads. -/
theorem test_witness_ReadsHaveNoSideEffect :
    (∀ i ∈ ([0x0E, 0x0F, 0x1B, 0x1F, 0x25, 0x2F, 0x3D, 0x3F] : List (Fin 64)),
      (i.val = 0x0E ∨ i.val = 0x0F ∨ (0x1B ≤ i.val ∧ i.val ≤ 0x1F) ∨ (0x25 ≤ i.val ∧ i.val ≤ 0x2F) ∨ 0x3D ≤ i.val) ∧
        (host [.readReg i]).script = .readReg i :: []) ∧
    ∃ t, ({ oranState with script := [.readOctet .scr 1] } : State).script = .readOctet .scr 1 :: [] ∧
      step { oranState with script := [.readOctet .scr 1] } = .next t := by
  exact ⟨by decide, _, rfl, rfl⟩

/-- A code and its number in the table of R200, and a state that holds it: ERR 11 in phase ERROR. -/
theorem test_witness_StatusWordHasFourFields :
    (ErrCode.resourceExceeded, 11) ∈ [(ErrCode.noError, 0), (.configReadFailure, 1), (.configParseError, 2), (.iqSourceFailure, 3),
        (.planInfeasible, 4), (.oranFieldOverflow, 5), (.ecpriPayloadTooLarge, 6), (.ethernetFrameTooLarge, 7), (.invalidPayloadType, 8),
        (.crcInputEmpty, 9), (.illegalCommand, 10), (.resourceExceeded, 11)] ∧
      ({ failed with err := .resourceExceeded } : State).statusWord = 0xB04 := by decide

theorem test_witness_ScratchOctetsReadBack :
    (∀ a ∈ [0, 65535], a < State.reset.params.scrCap ∧ (host [.writeOctet .scr a 9]).script = .writeOctet .scr a 9 :: []) ∧
    (OctetSpace.scr ≠ .out ∧ 3 < oranState.cap .scr ∧ Mem.read (oranState.mem .scr) 3 = some 0x80) ∧
    (OctetSpace.pool ≠ .out ∧ 5 < smallPlanned.cap .pool ∧ Mem.read (smallPlanned.mem .pool) 5 = some 6) := by decide +kernel

/-- The last readable octet after one STEP, the first unreadable one, and IDLE. -/
theorem test_witness_OutIsReadableInItsWindow :
    (smallRunning.phase = .running ∧ 71 < smallRunning.emitted.toNat ∧ 71 < smallRunning.params.outCap ∧
      Mem.read smallRunning.out 71 = some 0x07) ∧
    ¬((smallRunning.phase = .running ∨ smallRunning.phase = .done) ∧ 72 < smallRunning.emitted.toNat ∧ 72 < smallRunning.params.outCap) ∧
    ¬((State.reset.phase = .running ∨ State.reset.phase = .done) ∧ 0 < State.reset.emitted.toNat ∧ 0 < State.reset.params.outCap) ∧
    ({ smallRunning with script := [.readOctet .out 71] } : State).script = .readOctet .out 71 :: [] := by decide +kernel

theorem test_witness_UnservedAccessesStop :
    (host [.partialReg 0 4 4]).script = .partialReg 0 4 4 :: [] ∧
    (4 < oranState.cap .scr ∧ Mem.read (oranState.mem .scr) 4 = none) ∧ oranState.cap .scr ≤ 65536 ∧ oranState.cap .pool ≤ 1048576 ∧
    (host [.readOctet .scr 65536]).script = .readOctet .scr 65536 :: [] ∧
    (host [.readOctet .pool 1048576]).script = .readOctet .pool 1048576 :: [] := by decide +kernel

theorem test_witness_HardwareResetZeroesEverything :
    ({ failed with script := [.hardwareReset] } : State).script = .hardwareReset :: [] := by decide

theorem test_witness_CrcCommandResult :
    ∃ bs : List Octet, bs.length = crcState.arg.len.toNat ∧ 1 ≤ crcState.arg.len.toNat ∧
      crcState.arg.src.toNat + crcState.arg.len.toNat ≤ crcState.params.scrCap ∧
      ∀ k, k < crcState.arg.len.toNat → Mem.read crcState.scr (crcState.arg.src.toNat + k) = bs[k]? :=
  ⟨[0x31, 0x32, 0x33, 0x34, 0x35, 0x36, 0x37, 0x38, 0x39], by decide +kernel⟩

/-- No octets, and a range one octet too long. -/
theorem test_witness_CrcCommandErrors :
    State.reset.arg.len.toNat = 0 ∧
      (let a := { ArgRegs.zero with src := 65535, len := 2 }
       1 ≤ a.len.toNat ∧ State.reset.params.scrCap < a.src.toNat + a.len.toNat) := by decide

theorem test_witness_OranBuildResult :
    let s := oranState
    ∃ iq : List Octet, iq.length = s.arg.len.toNat ∧ s.arg.src.toNat + s.arg.len.toNat ≤ s.params.scrCap ∧
      (∀ k, k < s.arg.len.toNat → Mem.read s.scr (s.arg.src.toNat + k) = iq[k]?) ∧ s.arg.frame.toNat ≤ 255 ∧
      s.arg.subframe.toNat ≤ 15 ∧ s.arg.slot.toNat ≤ 63 ∧ s.arg.symbol.toNat ≤ 63 ∧ s.arg.startPrbu.toNat ≤ 1023 ∧
      (s.arg.numPrbu.toNat ≤ 255 ∨ s.arg.numPrbu.toNat = 273) ∧ s.arg.dst.toNat + (8 + s.arg.len.toNat) ≤ s.params.scrCap :=
  ⟨[0x01, 0xFF, 0x7F, 0x80], by decide +kernel⟩

theorem test_witness_EcpriBuildResult :
    let s := ecpriState
    ∃ pl : List Octet, pl.length = s.arg.len.toNat ∧ s.arg.src.toNat + s.arg.len.toNat ≤ s.params.scrCap ∧
      (∀ k, k < s.arg.len.toNat → Mem.read s.scr (s.arg.src.toNat + k) = pl[k]?) ∧ s.arg.seq.toNat ≤ 0xFFFF ∧
      s.arg.len.toNat ≤ 0xFFFF ∧ s.arg.dst.toNat + (8 + s.arg.len.toNat) ≤ s.params.scrCap :=
  ⟨or7, by decide +kernel⟩

theorem test_witness_EthBuildResult :
    let s := ethState
    ∃ (pl : List Octet) (L : Nat), pl.length = s.arg.len.toNat ∧ s.arg.src.toNat + s.arg.len.toNat ≤ s.params.scrCap ∧
      (∀ k, k < s.arg.len.toNat → Mem.read s.scr (s.arg.src.toNat + k) = pl[k]?) ∧ s.arg.ether.toNat ≤ 0xFFFF ∧
      s.cfg.minIfg.toNat ≤ 255 ∧ L = (26 + s.arg.len.toNat + s.cfg.minIfg.toNat + 3) / 4 * 4 ∧ L ≤ s.cfg.maxPkt.toNat ∧
      s.arg.dst.toNat + L ≤ s.params.scrCap :=
  ⟨ec4, 60, by decide +kernel⟩

/-- One state for each error of the builder commands, at the first value outside each range. -/
theorem test_witness_BuilderErrorsInOrder :
    (let a := { oranState.arg with src := 65533 }
     oranState.params.scrCap < a.src.toNat + a.len.toNat) ∧
    (let a := { ecpriState.arg with seq := 0x10000 }
     a.src.toNat + a.len.toNat ≤ ecpriState.params.scrCap ∧ 0xFFFF < a.seq.toNat) ∧
    (let a := { ethState.arg with ether := 0x10000 }
     a.src.toNat + a.len.toNat ≤ ethState.params.scrCap ∧ 0xFFFF < a.ether.toNat) ∧
    (let c := { ethState.cfg with minIfg := 256 }
     255 < c.minIfg.toNat) ∧
    (∀ k, k < oranState.arg.len.toNat → (Mem.read oranState.scr (oranState.arg.src.toNat + k)).isSome) ∧
    (∀ a ∈ [{ oranState.arg with frame := 256 }, { oranState.arg with subframe := 16 }, { oranState.arg with slot := 64 },
        { oranState.arg with symbol := 64 }, { oranState.arg with startPrbu := 1024 }, { oranState.arg with numPrbu := 256 },
        { oranState.arg with numPrbu := 272 }, { oranState.arg with numPrbu := 274 }],
      255 < a.frame.toNat ∨ 15 < a.subframe.toNat ∨ 63 < a.slot.toNat ∨ 63 < a.symbol.toNat ∨ 1023 < a.startPrbu.toNat ∨
        (255 < a.numPrbu.toNat ∧ a.numPrbu.toNat ≠ 273)) ∧
    (let a := { oranState.arg with dst := 65525 }
     oranState.params.scrCap < a.dst.toNat + (8 + a.len.toNat)) ∧
    (let a := { ecpriState.arg with dst := 65517 }
     a.seq.toNat ≤ 0xFFFF ∧ a.len.toNat ≤ 0xFFFF ∧ ecpriState.params.scrCap < a.dst.toNat + (8 + a.len.toNat)) ∧
    (let c := { ethState.cfg with maxPkt := 59 }
     ethState.arg.ether.toNat ≤ 0xFFFF ∧ c.minIfg.toNat ≤ 255 ∧
       c.maxPkt.toNat < (26 + ethState.arg.len.toNat + c.minIfg.toNat + 3) / 4 * 4) ∧
    (let a := { ethState.arg with dst := 65477 }
     (26 + a.len.toNat + ethState.cfg.minIfg.toNat + 3) / 4 * 4 ≤ ethState.cfg.maxPkt.toNat ∧
       ethState.params.scrCap < a.dst.toNat + (26 + a.len.toNat + ethState.cfg.minIfg.toNat + 3) / 4 * 4) := by decide +kernel

/-- EC6: a payload of 65,536 octets, which fills SCR. -/
theorem test_witness_BuilderErrorsInOrder_large :
    let s : State := { State.reset with
      scr := cellsFrom 0 (List.replicate 65536 0), arg := { ArgRegs.zero with len := 65536 } }
    s.arg.src.toNat + s.arg.len.toNat ≤ s.params.scrCap ∧
      (∀ k, k < s.arg.len.toNat → (Mem.read s.scr (s.arg.src.toNat + k)).isSome) ∧ s.arg.seq.toNat ≤ 0xFFFF ∧
      0xFFFF < s.arg.len.toNat := by
  refine ⟨by decide, fun k hk => ?_, by decide, by decide⟩
  have hk : k < 65536 := hk
  have h0 : (0#64).toNat + k = k := by simp
  show (Mem.read (cellsFrom 0 (List.replicate 65536 0)) ((0#64).toNat + k)).isSome = true
  rw [h0, Mem.read_cellsFrom, if_pos (Nat.zero_le k), Nat.sub_zero, List.getElem?_eq_getElem (by rw [List.length_replicate]; exact hk)]
  rfl

/-- A source range whose last octet is unwritten. -/
theorem test_witness_UnitCommandsFaultOnUnwrittenSource :
    let s : State := { ethState with arg := { ethState.arg with len := 21 } }
    s.arg.src.toNat + s.arg.len.toNat ≤ s.params.scrCap ∧ 20 < s.arg.len.toNat ∧ Mem.read s.scr (s.arg.src.toNat + 20) = none ∧
      s.arg.seq.toNat ≤ 0xFFFF ∧ s.arg.ether.toNat ≤ 0xFFFF ∧ s.cfg.minIfg.toNat ≤ 255 := by decide +kernel

theorem test_witness_OranHeaderRoundTrip :
    (∃ h, oranPacket { frameId := 3, subframeId := 5, slotId := 37, symbolId := 13, startPrbu := 341, numPrbu := 273 } [] = .ok h) ∧
      (∃ h, oranPacket { frameId := 255, subframeId := 15, slotId := 63, symbolId := 63, startPrbu := 1023, numPrbu := 0 } [] = .ok h) ∧
      smallPlanned.planOk = true :=
  ⟨⟨_, rfl⟩, ⟨_, rfl⟩, by decide +kernel⟩

theorem test_witness_EcpriLengthField : ∃ p, ecpriPacket 0x1234 or7 = .ok p := ⟨_, rfl⟩

/-- ET6, the inclusive limit. -/
theorem test_witness_EthFrameParts :
    ([0x00, 0x00] : List Octet).length = 2 ∧ (26 + ([] : List Octet).length + 0 + 3) / 4 * 4 ≤ 28 ∧
      ∃ f, ethFrame 0 0 [0x00, 0x00] [] 0 28 = .ok f := ⟨rfl, by decide, _, rfl⟩

theorem test_witness_UnitErrorChangesOnlyLerr :
    ∃ t, Instr.crc32.isUnit = true ∧ exec .crc32 State.reset = .next t ∧ t.lerr ≠ .noError := ⟨_, rfl, rfl, by decide⟩

theorem test_witness_UnitCommandsLeaveRunUnchanged :
    ∀ i ∈ [Instr.crc32, .oranBuild, .ecpriBuild, .ethBuild], i.isUnit = true ∧ ∃ t, exec i smallRunning = .next t := by
  have h : ∀ i ∈ [Instr.crc32, .oranBuild, .ecpriBuild, .ethBuild],
      i.isUnit = true ∧ (after (exec i smallRunning) State.phase).isSome = true := by decide +kernel
  exact fun i hi => ⟨(h i hi).1, exists_next (h i hi).2⟩

theorem test_witness_ClearResult : State.reset.invariant = true ∧ State.reset.phase = .idle := by decide +kernel

/-- S2 in fixed mode (PL2) and PL9 in random mode. -/
theorem test_witness_PlanStoresDerivedPlan :
    ∀ c ∈ [{ s1Cfg with nrbPerPkt := 51 }, { s1Cfg with nrbPerPkt := 51, payloadType := 2 }],
      let s := idle c [0, 0]
      let M := 273
      let N := 51
      let T := (M + N - 1) / N * 14 * (s.cfg.scs.toNat / 15) * 10 * (s.cfg.captureMs.toNat / 10)
      s.phase = .idle ∧ M = (if s.cfg.maxNrb = 0 then 273 else s.cfg.maxNrb.toNat) ∧
        N = (if s.cfg.nrbPerPkt = 0 then 273 else s.cfg.nrbPerPkt.toNat) ∧ (s.cfg.payloadType = 1 ∨ s.cfg.payloadType = 2) ∧
        s.cfg.lineRate.toNat ≤ 255 ∧ s.cfg.captureMs.toNat ≤ 255 ∧ s.cfg.minIfg.toNat ≤ 255 ∧ s.cfg.maxNrb.toNat ≤ 273 ∧
        s.cfg.nrbPerPkt.toNat ≤ 273 ∧ s.cfg.scs.toNat ≠ 0 ∧ s.cfg.scs.toNat % 15 = 0 ∧ s.cfg.captureMs.toNat ≠ 0 ∧
        s.cfg.captureMs.toNat % 10 = 0 ∧ N ≤ M ∧ T * (28 * N) < 2 ^ 64 ∧
        (s.cfg.payloadType = 1 → s.cfg.poolLen.toNat ≠ 0 ∧ s.cfg.poolLen.toNat % 2 = 0 ∧ s.cfg.poolLen.toNat ≤ s.params.poolCap) ∧
        s.cfg.lineRate.toNat * s.cfg.captureMs.toNat * 125000 ≤ s.params.outCap := by decide +kernel

/-- PL10, PL16, PL13, PL14, PL21, PL22, PL23, PL26 and PL1: every outcome of the checks, in their order. -/
theorem test_witness_PlanReportsFirstFailedCheck :
    (∀ x ∈ [({ s1Cfg with payloadType := 0 }, (0x804 : Word)), ({ s1Cfg with captureMs := 260 }, 0x404), ({ s1Cfg with scs := 20 }, 0x404),
        ({ s1Cfg with captureMs := 5 }, 0x404), ({ s1Cfg with maxNrb := 100, nrbPerPkt := 101 }, 0x404),
        ({ s1Cfg with scs := 15 * 2 ^ 62 }, 0x404), ({ s1Cfg with poolLen := 0 }, 0x304), (s1Cfg, 0x1)],
      (idle x.1 [0, 0]).phase = .idle ∧ after (exec .plan (idle x.1 [0, 0])) State.statusWord = some x.2) ∧
    after (exec .plan { idle s1Cfg [0, 0] with params := { Params.suggested with outCap := 1000000 } }) State.statusWord =
      some 0xB04 := by decide +kernel

/-- Packet 0 in PLANNED and packet 1 in RUNNING, in fixed mode. -/
theorem test_witness_StepEmitsFrame_fixed :
    ∀ x ∈ [(smallPlanned, IdCounters.zero), (smallRunning, (then' .step smallRunning).ids)],
      let s := x.1
      let d := x.2
      let iq := (then' .step s).iqScratch
      let I := 28
      let F := 72
      (s.phase = .planned ∨ (s.phase = .running ∧ s.packetNo.toNat < s.plan.totalPackets.toNat)) ∧
      d = (if s.packetNo.toNat = 0 then s.ids else advanceIds s.plan s.packetNo.toNat s.ids) ∧
      I = s.plan.iqPerPkt.toNat ∧ iq.length = I ∧
      (s.cfg.payloadType = 1 → ∀ k, k < I →
        (s.packetNo.toNat * I + k) % s.plan.poolLen.toNat < s.params.poolCap ∧
          Mem.read s.pool ((s.packetNo.toNat * I + k) % s.plan.poolLen.toNat) = iq[k]?) ∧
      s.cfg.payloadType = 1 ∧ d.slotId.toNat ≤ 63 ∧ d.startPrbu.toNat ≤ 1023 ∧
      (s.plan.nrbPerPkt.toNat ≤ 255 ∨ s.plan.nrbPerPkt.toNat = 273) ∧ 8 + I ≤ 0xFFFF ∧
      F = (42 + I + s.cfg.minIfg.toNat + 3) / 4 * 4 ∧ F ≤ s.cfg.maxPkt.toNat := by
  decide +kernel

/-- Packet 0 in random mode, whatever the generator is. -/
theorem test_witness_StepEmitsFrame_random :
    let s := planned { smallCfg with payloadType := 2, rngSeed := 7 } []
    ∃ iq : List Octet, s.phase = .planned ∧ s.packetNo.toNat = 0 ∧ s.cfg.payloadType ≠ 1 ∧ iq.length = s.plan.iqPerPkt.toNat ∧
      (∀ k, k < 28 → some (Config.rngOctet s.cfg.rngSeed (BitVec.ofNat 64 (s.packetNo.toNat * 28 + k))) = iq[k]?) ∧
      s.plan.iqPerPkt.toNat = 28 ∧ s.ids.slotId.toNat ≤ 63 ∧ s.ids.startPrbu.toNat ≤ 1023 ∧ s.plan.nrbPerPkt.toNat ≤ 255 ∧
      (42 + 28 + s.cfg.minIfg.toNat + 3) / 4 * 4 ≤ s.cfg.maxPkt.toNat := by
  refine ⟨(List.range 28).map fun k => Config.rngOctet 7 (BitVec.ofNat 64 k), by decide +kernel, by decide +kernel, by decide +kernel,
    ?_, ?_, by decide +kernel⟩
  · rw [List.length_map, List.length_range]
    decide +kernel
  · intro k hk
    have h0 : (planned { smallCfg with payloadType := 2, rngSeed := 7 } []).packetNo.toNat = 0 := by decide +kernel
    have h1 : (planned { smallCfg with payloadType := 2, rngSeed := 7 } []).cfg.rngSeed = 7 := by decide +kernel
    rw [h0, h1]
    simp [List.getElem?_map, List.getElem?_range hk]

/-- A frame one octet over the limit, a slot of 64, and 256 PRBs. -/
theorem test_witness_StepErrorEmitsNothing :
    (let s := planned { smallCfg with maxPkt := 71 } [1, 2, 3, 4, 5, 6]
     ∃ iq, s.phase = .planned ∧ s.iqSlice s.packetNo.toNat = .ok iq ∧ s.ids.slotId.toNat ≤ 63 ∧ s.ids.startPrbu.toNat ≤ 1023 ∧
       s.plan.nrbPerPkt.toNat ≤ 255 ∧ 8 + iq.length ≤ 0xFFFF ∧ s.cfg.maxPkt.toNat < (42 + iq.length + s.cfg.minIfg.toNat + 3) / 4 * 4) ∧
    (let s := { smallPlanned with phase := .running, packetNo := 1, ids := { IdCounters.zero with slotId := 64 } }
     ∃ iq, s.phase = .running ∧ s.packetNo.toNat < s.plan.totalPackets.toNat ∧ s.iqSlice s.packetNo.toNat = .ok iq ∧
       63 < (advanceIds s.plan s.packetNo.toNat s.ids).slotId.toNat) ∧
    (let s := { smallPlanned with plan := { smallPlanned.plan with nrbPerPkt := 256 } }
     ∃ iq, s.phase = .planned ∧ s.iqSlice s.packetNo.toNat = .ok iq ∧ 255 < s.plan.nrbPerPkt.toNat ∧ s.plan.nrbPerPkt.toNat ≠ 273) :=
  ⟨⟨(then' .step smallPlanned).iqScratch, by decide +kernel⟩, ⟨(then' .step smallRunning).iqScratch, by decide +kernel⟩,
    ⟨(then' .step smallPlanned).iqScratch, by decide +kernel⟩⟩

theorem test_witness_PayloadSliceFollowsCursor :
    ({ smallCfg with payloadType := 2 } : CfgRegs).payloadType ≠ 1 ∧
    (smallPlanned.cfg.payloadType = 1 ∧ ∃ iq, smallPlanned.iqSlice 1 = .ok iq ∧ 27 < iq.length) ∧
    (let s := planned smallCfg [1, 2, 3]
     s.phase = .planned ∧ s.packetNo.toNat = 0 ∧ 0 < s.plan.totalPackets.toNat ∧ s.cfg.payloadType = 1 ∧
       3 < s.plan.iqPerPkt.toNat ∧ Mem.read s.pool ((0 * s.plan.iqPerPkt.toNat + 3) % s.plan.poolLen.toNat) = none) :=
  ⟨by decide, ⟨by decide +kernel, (then' .step smallRunning).iqScratch, by decide +kernel⟩, by decide +kernel⟩

theorem test_witness_IdentifiersFollowClosedForms : (planned { s1Cfg with nrbPerPkt := 51, scs := 30 } [0, 0]).planOk = true := by
  decide +kernel

theorem test_witness_RunIsStepsThenFinish :
    (smallPlanned.phase = .planned ∧ smallPlanned.packetNo.toNat < smallPlanned.plan.totalPackets.toNat) ∧
    (smallRunning.phase = .running ∧ smallRunning.packetNo.toNat < smallRunning.plan.totalPackets.toNat) ∧
    ((smallAtEnd 4).phase = .running ∧ (smallAtEnd 4).packetNo = (smallAtEnd 4).plan.totalPackets) := by decide +kernel

/-- With octets left, and with none. -/
theorem test_witness_FinishAppendsTrailingIfg :
    ∀ n ∈ [4, 0], (smallAtEnd n).phase = .running ∧ (smallAtEnd n).packetNo = (smallAtEnd n).plan.totalPackets ∧
      (smallAtEnd n).emitted.toNat ≤ (smallAtEnd n).plan.totalBytes.toNat ∧
      n = (smallAtEnd n).plan.totalBytes.toNat - (smallAtEnd n).emitted.toNat := by decide +kernel

theorem test_witness_FinishOverBudgetIsInfeasible :
    let s := { smallAtEnd 0 with emitted := 1250001 }
    s.phase = .running ∧ s.packetNo = s.plan.totalPackets ∧ s.plan.totalBytes.toNat < s.emitted.toNat := by decide +kernel

/-- PL-R2, PL-R3, PL-R5, PL-R7, PL-R9, PL-R6, and 255 PRBs: the five cases of R173 at their boundaries. -/
theorem test_witness_RunOutcomeAfterPlan :
    (∀ c ∈ [{ baseCfg with nrbPerPkt := 256 }, { baseCfg with nrbPerPkt := 272 }],
      let s := planned c [0, 0]
      s.readyToRun = true ∧ 256 ≤ s.plan.nrbPerPkt.toNat ∧ s.plan.nrbPerPkt.toNat ≤ 272) ∧
    (let s := planned { baseCfg with maxPkt := 7699 } [0, 0]
     s.readyToRun = true ∧ ¬(256 ≤ s.plan.nrbPerPkt.toNat ∧ s.plan.nrbPerPkt.toNat ≤ 272) ∧
       s.cfg.maxPkt.toNat < s.plan.frameLen.toNat) ∧
    (let s := planned { baseCfg with maxPkt := 7700, scs := 975 } [0, 0]
     s.readyToRun = true ∧ ¬(s.cfg.maxPkt.toNat < s.plan.frameLen.toNat) ∧ 64 < s.plan.slotsPerSf.toNat) ∧
    (∀ c ∈ [{ baseCfg with scs := 960 }, { baseCfg with nrbPerPkt := 255 }],
      let s := planned c [0, 0]
      s.readyToRun = true ∧ ¬(256 ≤ s.plan.nrbPerPkt.toNat ∧ s.plan.nrbPerPkt.toNat ≤ 272) ∧ ¬(64 < s.plan.slotsPerSf.toNat) ∧
        s.plan.totalBytes.toNat < s.plan.totalPackets.toNat * s.plan.frameLen.toNat) ∧
    (let s := planned { baseCfg with maxPkt := 7700 } [0, 0]
     s.readyToRun = true ∧ s.runSucceeds = true) := by decide +kernel

/-- Program P3, and the same in random mode. -/
theorem test_witness_RunProducesTheStream :
    (smallPlanned.readyToRun = true ∧ smallPlanned.runSucceeds = true ∧ smallPlanned.cfg.payloadType = 1) ∧
    (planned { smallCfg with payloadType := 2 } []).readyToRun = true ∧
    (planned { smallCfg with payloadType := 2 } []).runSucceeds = true := by decide +kernel

theorem test_witness_SecondRunGivesTheSameStream : (planned baseCfg [0, 0]).readyToRun = true ∧ (planned baseCfg [0, 0]).runSucceeds = true := by
  decide +kernel

theorem test_witness_OnlyClearOrResetLeaveError :
    (∀ e ∈ [cmd .clear, .hardwareReset],
      ∃ t, failed.phase = .error ∧ step { failed with script := [e] } = .next t ∧ t.phase ≠ .error) ∧
    Instr.crc32.isUnit = true ∧ ∃ t, exec .crc32 failed = .next t := by
  refine ⟨?_, rfl, _, rfl⟩
  intro e he
  fin_cases he
  · exact ⟨_, rfl, rfl, by decide⟩
  · exact ⟨_, rfl, rfl, by decide⟩

theorem test_witness_ErrorPhaseKeepsFirstError :
    ∃ t, failed.phase = .error ∧ step { failed with script := [cmd .plan] } = .next t ∧ t.phase = .error := ⟨_, rfl, rfl, by decide⟩

theorem test_witness_ErrWrittenOnlyOnEntryToError :
    (∃ t, step (host [cmd .plan]) = .next t ∧ t.err ≠ (host [cmd .plan]).err) ∧
      ∃ t, step { failed with script := [cmd .clear] } = .next t ∧ t.err ≠ failed.err := ⟨⟨_, rfl, by decide⟩, _, rfl, by decide⟩

theorem test_witness_ConfigurationFrozenDuringRun :
    ∃ t, failed.phase ≠ .idle ∧ step { failed with script := [.writeReg 0x02 9] } = .next t ∧
      ∀ es, ({ failed with script := [.writeReg 0x02 9] } : State).script ≠ .hardwareReset :: es :=
  ⟨_, by decide, rfl, by intro es h; cases h⟩

theorem test_witness_OnlyStepAndRunAdvancePacketNo :
    (∃ t, exec .step smallPlanned = .next t) ∧
      ∃ t, step { smallPlanned with script := [cmd .step] } = .next t ∧ t.packetNo ≠ smallPlanned.packetNo := by
  have h : after (step { smallPlanned with script := [cmd .step] }) State.packetNo = some 1 := by decide +kernel
  have h0 : smallPlanned.packetNo = 0 := by decide +kernel
  obtain ⟨t, ht⟩ := exists_next (f := State.packetNo) (by rw [h]; rfl)
  rw [ht] at h
  refine ⟨exists_next (f := State.packetNo) (by decide +kernel), t, ht, ?_⟩
  rw [h0, Option.some.inj h]
  decide

theorem test_witness_LockedIsSticky :
    ∃ t, ({ State.reset with locked := true } : State).locked = true ∧
      step { State.reset with locked := true, script := [cmd .clear] } = .next t ∧ t.locked = false := ⟨_, rfl, rfl, by decide⟩

theorem test_witness_ParametersNeverChange : ∃ t, step (host [cmd .plan]) = .next t := ⟨_, rfl⟩

theorem test_witness_SequencerIgnoresUnitState : ∀ i ∈ [Instr.clear, .plan, .step, .run, .finish], i.isUnit = false := by decide

theorem test_witness_MemoriesStayCanonical :
    ∃ t, (host [.writeOctet .pool 5 9]).memoriesWf = true ∧ step (host [.writeOctet .pool 5 9]) = .next t := ⟨_, by decide, rfl⟩

/-- The invariant holds before and after STEP in program P3, and in ERROR. -/
theorem test_witness_InvariantIsInductive :
    smallPlanned.invariant = true ∧ smallRunning.invariant = true ∧ failed.invariant = true ∧
      after (step { smallPlanned with script := [cmd .step] }) State.phase = some .running := by decide +kernel

theorem test_witness_StreamStaysRight :
    let s := { smallPlanned with script := [cmd .step] }
    s.invariant = true ∧ s.streamWf ∧ after (step s) State.phase = some .running := by
  have h : smallPlanned.phase = .planned := by decide +kernel
  refine ⟨by decide +kernel, ⟨?_, ?_⟩, by decide +kernel⟩
  · intro hp
    simp_all
  · intro hp
    simp_all

/-- Program P3 after one STEP: the last payload octet of frame 0. -/
theorem test_witness_PayloadIsThePoolSlice :
    smallRunning.invariant = true ∧ smallRunning.streamWf ∧ smallRunning.phase = .running ∧ smallRunning.cfg.payloadType = 1 ∧
      0 < smallRunning.packetNo.toNat ∧ 27 < smallRunning.plan.iqPerPkt.toNat ∧
      0 * smallRunning.plan.frameLen.toNat + 38 + 27 < smallRunning.params.outCap := by
  have hn : smallRunning.packetNo.toNat = 1 := by decide +kernel
  have hp : smallRunning.phase = .running := by decide +kernel
  have hc : ∃ fr, smallRunning.packetFrame 0 fr ∧ fr.length = smallRunning.plan.frameLen.toNat ∧
      ∀ j, j < fr.length → Mem.read smallRunning.out (0 * smallRunning.plan.frameLen.toNat + j) = fr[j]? :=
    ⟨smallRunning.out.map (·.2), ⟨smallRunning.iqScratch, by decide +kernel⟩, by decide +kernel⟩
  refine ⟨by decide +kernel, ⟨?_, ?_⟩, hp, by decide +kernel⟩
  · intro _ p hlt
    obtain rfl : p = 0 := by omega
    obtain ⟨fr, h1, h2, h3⟩ := hc
    exact ⟨fr, h1, h2, fun j hj _ => h3 j hj⟩
  · intro h
    simp [hp] at h

end Sys2Proof.Tests
end

section
/-! PROOFS. What a step does with a register or octet write, what the registers hold after reset, and with them the statements about CMD (R28), the
locks (R39, R68) and the reset state (R50). -/

namespace Sys2Proof.Machine

/-! ### A step takes the first event off the script -/

theorem step_of_script {s : State} {e : HostEvent} {es : List HostEvent} (h : s.script = e :: es) :
    step s = perform e { s with script := es } := by
  simp [step, h, State.popEvent]

/-! ### CMD -/

theorem issueCommand_of_decode {w : Word} {i : Instr} (h : decode w = .ok i) (s : State) : issueCommand w s = exec i s := by
  simp only [issueCommand, h]

@[simp] theorem State.indexRead_cmd (s : State) : s.indexRead 0x01 = 0 := rfl

/-- Settles O4: the CMD write is the event the step performs, and it issues the command its word decodes to. -/
theorem stepRunsDecodedCommand : Obligations.StepRunsDecodedCommand := by
  refine ⟨fun s w i es hs hd => ?_, State.indexRead_cmd⟩
  calc step s = issueCommand w { s with script := es } := step_of_script hs
    _ = exec i { s with script := es } := issueCommand_of_decode hd _

/-! ### The register an index names -/

theorem regAt_regIndex (r : Reg) : regAt (regIndex r) = some r := by cases r <;> rfl

theorem indexRead_regIndex (s : State) (r : Reg) : s.indexRead (regIndex r) = s.regRead r := by
  simp only [State.indexRead, regAt_regIndex]

theorem indexWrite_regIndex (s : State) (v : Word) {r : Reg} (h : r ≠ .cmd) :
    indexWrite (regIndex r) v s = .next (s.regWrite v r) := by
  simp only [indexWrite, regAt_regIndex]

/-! ### Writes to the CFG_ registers -/

/-- The registers at the indices 0x02 to 0x0D (R22). -/
def cfgRegisters : List Reg :=
  [.cfgLineRate, .cfgCaptureMs, .cfgMinIfg, .cfgDestMac, .cfgSrcMac, .cfgMaxPkt, .cfgScs, .cfgMaxNrb, .cfgNrbPerPkt, .cfgPayloadType,
    .cfgPoolLen, .cfgRngSeed]

theorem exists_cfgRegister_of_index : ∀ i : Fin 64, 2 ≤ i.val → i.val ≤ 0x0D → ∃ r ∈ cfgRegisters, i = regIndex r := by decide

/-- A MAC register reads back the low 48 bits of what was written to it (R32). -/
theorem setWidth_48_64_eq_and (v : Word) : (v.setWidth 48).setWidth 64 = v &&& 0x0000FFFFFFFFFFFF := by
  apply BitVec.eq_of_toNat_eq
  have hlt : v.toNat % 2 ^ 48 < 2 ^ 64 := by omega
  rw [BitVec.toNat_setWidth, BitVec.toNat_setWidth, BitVec.toNat_and, Nat.mod_eq_of_lt hlt]
  exact (Nat.and_two_pow_sub_one_eq_mod v.toNat 48).symm

/-- A write to a CFG_ register is a `cfgWrite` of registers in which it reads the value written (R32, R39). -/
theorem State.regWrite_cfg (s : State) (v : Word) {r : Reg} (hr : r ∈ cfgRegisters) :
    ∃ c, s.regWrite v r = s.cfgWrite c ∧
      State.regRead { s with cfg := c } r =
        if (regIndex r).val = 0x05 ∨ (regIndex r).val = 0x06 then v &&& 0x0000FFFFFFFFFFFF else v := by
  cases r
  case cfgDestMac | cfgSrcMac => exact ⟨_, rfl, setWidth_48_64_eq_and v⟩
  case cfgLineRate | cfgCaptureMs | cfgMinIfg | cfgMaxPkt | cfgScs | cfgMaxNrb | cfgNrbPerPkt | cfgPayloadType | cfgPoolLen | cfgRngSeed =>
    exact ⟨_, rfl, rfl⟩
  all_goals exact absurd hr (by decide)

/-- What a write to an index from 0x02 to 0x0D does, in every phase (R32, R39). -/
theorem indexWrite_cfg (s : State) (v : Word) {i : Fin 64} (h2 : 2 ≤ i.val) (hD : i.val ≤ 0x0D) :
    ∃ c, indexWrite i v s = .next (s.cfgWrite c) ∧
      State.indexRead { s with cfg := c } i = if i.val = 0x05 ∨ i.val = 0x06 then v &&& 0x0000FFFFFFFFFFFF else v := by
  obtain ⟨r, hr, rfl⟩ := exists_cfgRegister_of_index i h2 hD
  obtain ⟨c, hw, hread⟩ := s.regWrite_cfg v hr
  have hcmd : r ≠ .cmd := by rintro rfl; exact absurd hr (by decide)
  exact ⟨c, by rw [indexWrite_regIndex s v hcmd, hw], by rw [indexRead_regIndex, hread]⟩

/-! ### Writes to POOL -/

theorem octetWrite_pool_idle (s : State) {a : Nat} (ha : a < s.params.poolCap) (hp : s.phase = .idle) (b : Octet) :
    octetWrite .pool a b s = .next { s with pool := Mem.writeRange s.pool a [b] } :=
  (if_pos ha).trans (if_pos hp)

theorem octetWrite_pool_locked (s : State) {a : Nat} (ha : a < s.params.poolCap) (hp : s.phase ≠ .idle) (b : Octet) :
    octetWrite .pool a b s = .next s.lockSet :=
  (if_pos ha).trans (if_neg hp)

theorem Mem.read_writeRange_singleton (m : Mem) (a : Nat) (b : Octet) (x : Nat) :
    Mem.read (Mem.writeRange m a [b]) x = if x = a then some b else Mem.read m x := by
  by_cases h : x = a
  · subst h; simp [Mem.read_writeRange]
  · rw [if_neg h, Mem.read_writeRange_outside]
    simp only [List.length_singleton]; omega

/-- Settles O9: a CFG_ write is a `cfgWrite` and a POOL write stores one octet, and outside IDLE both only set LOCKED. -/
theorem lockedWritesAreDropped : Obligations.LockedWritesAreDropped := by
  constructor
  · intro s i v es h2 hD hs
    obtain ⟨c, hw, hread⟩ := indexWrite_cfg { s with script := es } v h2 hD
    have hstep : step s = .next (State.cfgWrite c { s with script := es }) := (step_of_script hs).trans hw
    refine ⟨fun hp => ?_, fun hp => ?_⟩
    · rw [hstep, State.cfgWrite_locked c { s with script := es } hp]; rfl
    · rw [State.cfgWrite_idle c { s with script := es } hp] at hstep
      exact ⟨_, hstep, rfl, hread⟩
  · intro s a b es ha hs
    have hstep : step s = octetWrite .pool a b { s with script := es } := step_of_script hs
    refine ⟨fun hp => ?_, fun hp => ?_⟩
    · exact hstep.trans (octetWrite_pool_locked { s with script := es } ha hp b)
    · exact ⟨_, hstep.trans (octetWrite_pool_idle { s with script := es } ha hp b), rfl, Mem.read_writeRange_singleton s.pool a b⟩

/-! ### The state after reset -/

@[simp] theorem State.hardwareReset_reset : State.reset.hardwareReset = State.reset := rfl

theorem State.statusWord_hardwareReset (s : State) : s.hardwareReset.statusWord = 0 := by
  simp only [State.statusWord, State.hardwareReset_phase, State.hardwareReset_err, State.hardwareReset_lerr, State.hardwareReset_locked]
  decide

theorem State.regRead_hardwareReset (s : State) (r : Reg) : s.hardwareReset.regRead r = 0 := by
  cases r
  case status => exact s.statusWord_hardwareReset
  all_goals rfl

/-- Hardware reset clears every register, and an unlisted index reads 0 in every state (R21, R230). -/
theorem State.indexRead_hardwareReset (s : State) (i : Fin 64) : s.hardwareReset.indexRead i = 0 := by
  unfold State.indexRead
  cases regAt i with
  | none => rfl
  | some r => exact s.regRead_hardwareReset r

/-! ### PLAN that fails its checks -/

theorem planChecks_invalidPayloadType {c : CfgRegs} (h1 : c.payloadType ≠ 1) (h2 : c.payloadType ≠ 2) (p : Params) :
    planChecks p c = .error .invalidPayloadType := if_pos ⟨h1, h2⟩

/-- PLAN in IDLE enters ERROR with the code of the check that fails, and changes nothing else (R171, R204, R205). -/
theorem exec_plan_of_error {s : State} {c : ErrCode} (hp : s.phase = .idle) (hc : planChecks s.params s.cfg = .error c) :
    exec .plan s = .next (s.sequencerError c) := by
  have hbody : planBody s = .raised c s := by simp only [planBody, hc]
  exact sequencerCommand_eq_next.2
    (.inl ⟨(planLegality_runs s).2 hp, Body.outcome_eq_next.2 (.inr ⟨c, s, hbody, rfl⟩)⟩)

/-- Settles O17: the reset state is its own hardware reset, and its payload type 0 fails PLAN's first check. -/
theorem resetStateReadsZero : Obligations.ResetStateReadsZero := by
  have hread : ∀ i, State.reset.indexRead i = 0 := fun i => by
    rw [← State.hardwareReset_reset, State.indexRead_hardwareReset]
  have hplan : exec .plan State.reset = .next (State.reset.sequencerError .invalidPayloadType) :=
    exec_plan_of_error rfl (planChecks_invalidPayloadType (by decide) (by decide) _)
  exact ⟨hread, rfl, rfl, rfl, rfl, rfl, rfl, ⟨rfl, rfl, rfl, rfl, rfl, rfl⟩,
    fun a => ⟨Mem.read_nil a, Mem.read_nil a, Mem.read_nil a⟩, hplan⟩

end Sys2Proof.Machine
end

section
/-! PROOFS. The decoding procedure of R93 and the expansions of host script lines (R101, R102). -/

namespace Sys2Proof.Machine

/-! ### The fields of a command word as arithmetic, and the opcode map -/

@[simp] theorem opcOf_toNat (w : Word) : (opcOf w).toNat = w.toNat % 256 := by
  simp only [opcOf, BitVec.extractLsb'_toNat, Nat.shiftRight_zero]

theorem rsvOf_eq_zero_iff (w : Word) : rsvOf w = 0 ↔ w.toNat / 256 = 0 := by
  have hfits : w.toNat / 256 < 2 ^ 56 := by omega
  have hval : (rsvOf w).toNat = w.toNat / 256 := by
    rw [rsvOf, BitVec.extractLsb'_toNat, Nat.shiftRight_eq_div_pow]
    exact Nat.mod_eq_of_lt hfits
  rw [← hval]
  exact BitVec.toNat_eq

theorem decode_of_reserved {w : Word} (h : w.toNat / 256 ≠ 0) : decode w = .error .reservedBits :=
  if_pos (mt (rsvOf_eq_zero_iff w).1 h)

theorem decode_of_rsv_zero {w : Word} (h : w.toNat / 256 = 0) : decode w = decodeOpc (opcOf w) :=
  if_neg (not_not.2 ((rsvOf_eq_zero_iff w).2 h))

/-- The rows of R91's opcode map exclude each other, so their order in a chain of tests does not matter. -/
theorem decodeOpc_eq (opc : Octet) :
    decodeOpc opc =
      if opc.toNat = 0x01 then .ok .clear
      else if opc.toNat = 0x02 then .ok .plan
      else if opc.toNat = 0x03 then .ok .step
      else if opc.toNat = 0x04 then .ok .run
      else if opc.toNat = 0x05 then .ok .finish
      else if opc.toNat = 0x10 then .ok .crc32
      else if opc.toNat = 0x11 then .ok .oranBuild
      else if opc.toNat = 0x12 then .ok .ecpriBuild
      else if opc.toNat = 0x13 then .ok .ethBuild
      else .error .unknownOpcode := by
  unfold decodeOpc
  split
  case h_10 h1 h2 h3 h4 h5 h6 h7 h8 h9 =>
    rw [if_neg h1, if_neg h2, if_neg h3, if_neg h4, if_neg h5, if_neg h6, if_neg h7, if_neg h8, if_neg h9]
  all_goals simp [*]

/-- Settles O2: RSV is the word's quotient by 256 and OPC its remainder, so R93 is a test on the first and then the opcode map on the second. -/
theorem decodeFollowsTheProcedure : Obligations.DecodeFollowsTheProcedure := by
  intro w
  by_cases hrsv : w.toNat / 256 = 0
  · rw [decode_of_rsv_zero hrsv, decodeOpc_eq, opcOf_toNat, if_neg (not_not.2 hrsv)]
  · rw [decode_of_reserved hrsv, if_pos hrsv]

/-! ### Host script lines -/

theorem octetWriteEvents_eq_mapIdx (sp : OctetSpace) (a : Nat) (os : List Octet) :
    octetWriteEvents sp a os = os.mapIdx fun k b => .writeOctet sp (a + k) b := by
  induction os generalizing a with
  | nil => rfl
  | cons b bs ih =>
    have hshift : ∀ k, a + 1 + k = a + (k + 1) := fun k => by omega
    simp only [octetWriteEvents, List.mapIdx_cons, ih, hshift, Nat.add_zero]

@[simp] theorem octetWriteEvents_length (sp : OctetSpace) (a : Nat) (os : List Octet) :
    (octetWriteEvents sp a os).length = os.length := by
  rw [octetWriteEvents_eq_mapIdx, List.length_mapIdx]

theorem octetWriteEvents_getElem? (sp : OctetSpace) (a : Nat) (os : List Octet) (k : Nat) :
    (octetWriteEvents sp a os)[k]? = os[k]?.map (.writeOctet sp (a + k)) := by
  rw [octetWriteEvents_eq_mapIdx, List.getElem?_mapIdx]

/-- A `UNIT` field that is named is written once, and one left out is not written (R102). -/
theorem optionalWrite_eq_map (r : Reg) (v : Option Word) : optionalWrite r v = v.toList.map (.writeReg (regIndex r)) := by
  cases v <;> rfl

/-- Settles O60: each line is its definition's expansion, with the three optional writes of UNIT as maps and the octet writes of WB by position. -/
theorem scriptLinesExpand : Obligations.ScriptLinesExpand := by
  have hunit (i : Instr) (a b c : Option Word) : lineEvents (.unit i a b c) =
      (a.toList.map fun v => .writeReg 0x10 v) ++ (b.toList.map fun v => .writeReg 0x11 v) ++
        (c.toList.map fun v => .writeReg 0x12 v) ++ lineEvents (.command i) := by
    simp only [lineEvents, optionalWrite_eq_map, regIndex]
  have hoctets (sp : OctetSpace) (a : Nat) (os : List Octet) (k : Nat) (b : Octet) (hk : os[k]? = some b) :
      (lineEvents (.wb sp a os))[k]? = some (.writeOctet sp (a + k) b) := by
    rw [lineEvents, octetWriteEvents_getElem?, hk, Option.map_some]
  exact ⟨fun _ => rfl, hunit, fun _ => rfl, fun sp a os => ⟨octetWriteEvents_length sp a os, hoctets sp a os⟩,
    fun r _ => ⟨rfl, rfl, regAt_regIndex r⟩, rfl, fun _ _ => rfl⟩

end Sys2Proof.Machine
end

section
/-! PROOFS. The parts of an Ethernet frame: its octets in order, its length, and the octets its FCS covers (R98 to R100, R125, R150 to R156). -/

namespace Sys2Proof.Machine

/-! ### Big-endian fields as arithmetic (R14, R69) -/

theorem extractLsb'_eq_ofNat_div {w : Nat} (v : BitVec w) (k n : Nat) : v.extractLsb' k n = BitVec.ofNat n (v.toNat / 2 ^ k) := by
  rw [BitVec.extractLsb', Nat.shiftRight_eq_div_pow]

theorem be32_eq_ofNat (v : BitVec 32) :
    be32 v = [BitVec.ofNat 8 (v.toNat / 2 ^ 24), BitVec.ofNat 8 (v.toNat / 2 ^ 16), BitVec.ofNat 8 (v.toNat / 2 ^ 8),
      BitVec.ofNat 8 v.toNat] := by
  simp only [be32, extractLsb'_eq_ofNat_div, Nat.pow_zero, Nat.div_one]

theorem be48_eq_ofNat (v : BitVec 48) :
    be48 v = [BitVec.ofNat 8 (v.toNat / 2 ^ 40), BitVec.ofNat 8 (v.toNat / 2 ^ 32), BitVec.ofNat 8 (v.toNat / 2 ^ 24),
      BitVec.ofNat 8 (v.toNat / 2 ^ 16), BitVec.ofNat 8 (v.toNat / 2 ^ 8), BitVec.ofNat 8 v.toNat] := by
  simp only [be48, extractLsb'_eq_ofNat_div, Nat.pow_zero, Nat.div_one]

/-! ### Reading a sequence part by part -/

theorem take_of_drop_eq_append {α : Type} {l a b : List α} {n m : Nat} (h : l.drop n = a ++ b) (hm : a.length = m) :
    (l.drop n).take m = a := by
  rw [h]; exact List.take_left' hm

theorem drop_add_of_drop_eq_append {α : Type} {l a b : List α} {n m : Nat} (h : l.drop n = a ++ b) (hm : a.length = m) :
    l.drop (n + m) = b := by
  rw [← List.drop_drop, h]; exact List.drop_left' hm

/-! ### The Ethernet frame -/

/-- Padding to a multiple of 4 is rounding up (R152, R154). -/
theorem frameLen_eq_round_up (p ifg : Nat) : frameLen p ifg = (26 + p + ifg + 3) / 4 * 4 := by
  unfold frameLen padCount; omega

theorem frameLen_mod_four (p ifg : Nat) : frameLen p ifg % 4 = 0 := add_padCount_mod _

/-- The covered octets in the order of R150, in front of whatever follows them. -/
theorem ethBody_append (d s : BitVec 48) (e2 pl rest : List Octet) :
    ethBody d s e2 pl ++ rest = be48 d ++ (be48 s ++ (e2 ++ (pl ++ rest))) := by
  simp only [ethBody, List.append_assoc]

/-- The builder answers a frame exactly within the limit: the parts of R150 in order, with the gap and the padding as one run of `ifgOctet`. -/
theorem ethFrame_eq_ok {d s : BitVec 48} {e2 pl f : List Octet} {ifg maxp : Nat} (he : e2.length = 2) :
    ethFrame d s e2 pl ifg maxp = .ok f ↔
      frameLen pl.length ifg ≤ maxp ∧
        f = preambleSfd ++ (ethBody d s e2 pl ++
          (fcsOctets (ethBody d s e2 pl) ++ List.replicate (frameLen pl.length ifg - (26 + pl.length)) ifgOctet)) := by
  have htail : frameLen pl.length ifg - (26 + pl.length) = ifg + padCount (26 + pl.length + ifg) := by
    unfold frameLen; omega
  rw [htail, List.replicate_add]
  rcases ethFrame_cases d s e2 pl ifg maxp he with ⟨hfits, e⟩ | ⟨hlong, e⟩ <;> rw [e]
  · simp only [Except.ok.injEq, hfits, true_and, ethUnpadded, List.append_assoc, eq_comm]
  · simp only [reduceCtorEq, Nat.not_le.2 hlong, false_and]

/-- Settles O29: by `ethFrame_eq_ok` a frame is its parts in order, so each part is read where the part before it ends. -/
theorem ethFrameParts : Obligations.EthFrameParts := by
  constructor
  · rintro d s e2 pl f ifg maxp _ _ _ he hok rfl rfl rfl
    obtain ⟨hlen, hmax⟩ := ethFrame_length he hok
    obtain ⟨-, hf⟩ := (ethFrame_eq_ok he).1 hok
    rw [← hlen] at hf
    have h0 : f.drop 0 = preambleSfd ++ _ := hf
    have h8 : f.drop 8 = ethBody d s e2 pl ++ _ := drop_add_of_drop_eq_append h0 rfl
    have hbody : (f.drop 8).take (14 + pl.length) = ethBody d s e2 pl :=
      take_of_drop_eq_append h8 (by rw [ethBody_length, he])
    rw [ethBody_append] at h8
    have h14 : f.drop 14 = be48 s ++ _ := drop_add_of_drop_eq_append h8 rfl
    have h20 : f.drop 20 = e2 ++ _ := drop_add_of_drop_eq_append h14 rfl
    have h22 : f.drop 22 = pl ++ _ := drop_add_of_drop_eq_append h20 he
    have hfcs : f.drop (22 + pl.length) = fcsOctets _ ++ _ := drop_add_of_drop_eq_append h22 rfl
    have htail : f.drop (22 + pl.length + 4) = List.replicate (f.length - (26 + pl.length)) ifgOctet :=
      drop_add_of_drop_eq_append hfcs rfl
    rw [hbody, ← be48_eq_ofNat, ← be48_eq_ofNat, ← be32_eq_ofNat]
    refine ⟨?_, ?_, hmax, take_of_drop_eq_append h0 rfl, take_of_drop_eq_append h8 rfl, take_of_drop_eq_append h14 rfl,
      take_of_drop_eq_append h20 he, take_of_drop_eq_append h22 rfl, ?_, ?_⟩
    · rw [hlen, frameLen_eq_round_up]
    · rw [hlen, frameLen_mod_four]
    · exact take_of_drop_eq_append hfcs rfl
    · rwa [Nat.add_right_comm] at htail
  · intro d s e2 pl ifg maxp he hfits
    rw [← frameLen_eq_round_up] at hfits
    exact ⟨_, (ethFrame_eq_ok he).2 ⟨hfits, rfl⟩⟩

end Sys2Proof.Machine
end

section
/-! PROOFS. The O-RAN header read back: fields packed into one octet are each read back, and a field split over two octets is joined again
(R96, R130 to R134). -/

namespace Sys2Proof.Machine

/-! ### Bit fields: packed and read back, split and joined -/

theorem shiftLeft_or_shiftRight {b k : Nat} (a : Nat) (hb : b < 2 ^ k) : (a <<< k ||| b) >>> k = a := by
  rw [Nat.shiftRight_or_distrib, Nat.shiftLeft_shiftRight, Nat.shiftRight_eq_zero b k hb, Nat.or_zero]

theorem shiftLeft_or_and_mask {b k : Nat} (a : Nat) (hb : b < 2 ^ k) : (a <<< k ||| b) &&& (2 ^ k - 1) = b := by
  rw [Nat.and_two_pow_sub_one_eq_mod, ← Nat.shiftLeft_add_eq_or_of_lt hb, Nat.shiftLeft_eq, Nat.mul_add_mod_of_lt hb]

theorem and_mask_lt (v k : Nat) : v &&& (2 ^ k - 1) < 2 ^ k :=
  Nat.and_lt_two_pow v (Nat.sub_one_lt (Nat.two_pow_pos k).ne')

theorem shiftRight_shiftLeft_or_and_mask (v k : Nat) : (v >>> k) <<< k ||| (v &&& (2 ^ k - 1)) = v := by
  rw [← Nat.shiftLeft_add_eq_or_of_lt (and_mask_lt v k), Nat.and_two_pow_sub_one_eq_mod, Nat.shiftLeft_eq,
    Nat.shiftRight_eq_div_pow, Nat.div_add_mod']

theorem shiftRight_lt_two_pow {v j k : Nat} (hv : v < 2 ^ (k + j)) : v >>> k < 2 ^ j := by
  rw [Nat.shiftRight_eq_div_pow]; exact Nat.div_lt_of_lt_mul (Nat.pow_add 2 k j ▸ hv)

/-- A value stored in an octet that is wide enough is kept. -/
theorem octet_toNat_of_lt {v : Nat} (hv : v < 2 ^ 8) : (BitVec.ofNat 8 v).toNat = v := by
  rw [BitVec.toNat_ofNat, Nat.mod_eq_of_lt hv]

/-! ### The octets of a header whose fields fit (R130, R131): each octet holds its bit fields in full -/

theorem headerOctet_one {f : OranFields} (hfr : f.frameId ≤ 255) (iq : List Octet) :
    headerOctet (oranHeader f ++ iq) 1 = f.frameId :=
  octet_toNat_of_lt (Nat.lt_succ_of_le hfr)

theorem headerOctet_two {f : OranFields} (hsf : f.subframeId ≤ 15) (hsl : f.slotId ≤ 63) (iq : List Octet) :
    headerOctet (oranHeader f ++ iq) 2 = f.subframeId <<< 4 ||| f.slotId >>> 2 := by
  have hhigh : f.slotId >>> 2 < 2 ^ 4 := shiftRight_lt_two_pow (Nat.lt_succ_of_le hsl)
  calc headerOctet (oranHeader f ++ iq) 2
      = (BitVec.ofNat 8 (f.subframeId <<< 4 ||| (f.slotId >>> 2 &&& 2 ^ 4 - 1))).toNat := rfl
    _ = (BitVec.ofNat 8 (f.subframeId <<< 4 ||| f.slotId >>> 2)).toNat := by rw [Nat.and_two_pow_sub_one_of_lt_two_pow hhigh]
    _ = f.subframeId <<< 4 ||| f.slotId >>> 2 :=
      octet_toNat_of_lt (Nat.or_lt_two_pow (Nat.shiftLeft_lt (n := 4) (Nat.lt_succ_of_le hsf)) (by omega))

theorem headerOctet_three {f : OranFields} (hsy : f.symbolId ≤ 63) (iq : List Octet) :
    headerOctet (oranHeader f ++ iq) 3 = (f.slotId &&& 0x03) <<< 6 ||| f.symbolId := by
  have hsy' : f.symbolId < 2 ^ 6 := Nat.lt_succ_of_le hsy
  calc headerOctet (oranHeader f ++ iq) 3
      = (BitVec.ofNat 8 ((f.slotId &&& 0x03) <<< 6 ||| (f.symbolId &&& 2 ^ 6 - 1))).toNat := rfl
    _ = (BitVec.ofNat 8 ((f.slotId &&& 0x03) <<< 6 ||| f.symbolId)).toNat := by rw [Nat.and_two_pow_sub_one_of_lt_two_pow hsy']
    _ = (f.slotId &&& 0x03) <<< 6 ||| f.symbolId :=
      octet_toNat_of_lt (Nat.or_lt_two_pow (Nat.shiftLeft_lt (n := 2) (and_mask_lt _ 2)) (by omega))

/-- The upper six bits of H5 are the constant 0x3C. -/
theorem headerOctet_five {f : OranFields} (hsp : f.startPrbu ≤ 1023) (iq : List Octet) :
    headerOctet (oranHeader f ++ iq) 5 = 0x3C <<< 2 ||| f.startPrbu >>> 8 := by
  have hhigh : f.startPrbu >>> 8 < 2 ^ 2 := shiftRight_lt_two_pow (Nat.lt_succ_of_le hsp)
  calc headerOctet (oranHeader f ++ iq) 5
      = (BitVec.ofNat 8 (0x3C <<< 2 ||| (f.startPrbu >>> 8 &&& 2 ^ 2 - 1))).toNat := rfl
    _ = (BitVec.ofNat 8 (0x3C <<< 2 ||| f.startPrbu >>> 8)).toNat := by rw [Nat.and_two_pow_sub_one_of_lt_two_pow hhigh]
    _ = 0x3C <<< 2 ||| f.startPrbu >>> 8 := octet_toNat_of_lt (Nat.or_lt_two_pow (by decide) (by omega))

theorem headerOctet_six (f : OranFields) (iq : List Octet) :
    headerOctet (oranHeader f ++ iq) 6 = f.startPrbu &&& 0xFF :=
  octet_toNat_of_lt (and_mask_lt f.startPrbu 8)

theorem headerOctet_seven {f : OranFields} (hnp : f.numPrbu ≤ 255 ∨ f.numPrbu = 273) (iq : List Octet) :
    headerOctet (oranHeader f ++ iq) 7 = encodeNumPrbu f.numPrbu := by
  have hfits : encodeNumPrbu f.numPrbu < 2 ^ 8 := by unfold encodeNumPrbu maxPrbs; split <;> omega
  exact octet_toNat_of_lt hfits

/-- 273 is sent as 0, so 0 and 273 both read back as 273 (R132). -/
theorem decode_encodeNumPrbu (np : Nat) :
    (if encodeNumPrbu np = 0 then maxPrbs else encodeNumPrbu np) = if np = 0 then maxPrbs else np := by
  by_cases h : np = maxPrbs
  · subst h; rfl
  · simp only [encodeNumPrbu, if_neg h]

/-! ### The round trip (R134) -/

/-- The parser of R134 inverts the header of fields that fit, but for a PRB count of 0, which it reads as 273. -/
theorem parseOranHeader_oranHeader {f : OranFields} (hfit : oranFieldsFit f = true) (iq : List Octet) :
    parseOranHeader (oranHeader f ++ iq) = { f with numPrbu := if f.numPrbu = 0 then maxPrbs else f.numPrbu } := by
  obtain ⟨hfr, hsf, hsl, hsy, hsp, hnp⟩ := (oranFieldsFit_iff f).1 hfit
  have hslotHigh : f.slotId >>> 2 < 2 ^ 4 := shiftRight_lt_two_pow (Nat.lt_succ_of_le hsl)
  have hstartHigh : f.startPrbu >>> 8 < 2 ^ 2 := shiftRight_lt_two_pow (Nat.lt_succ_of_le hsp)
  have hsymbol : f.symbolId < 2 ^ 6 := Nat.lt_succ_of_le hsy
  have h2upper : (f.subframeId <<< 4 ||| f.slotId >>> 2) >>> 4 = f.subframeId := shiftLeft_or_shiftRight _ hslotHigh
  have h2lower : (f.subframeId <<< 4 ||| f.slotId >>> 2) &&& 0x0F = f.slotId >>> 2 := shiftLeft_or_and_mask _ hslotHigh
  have h3upper : ((f.slotId &&& 0x03) <<< 6 ||| f.symbolId) >>> 6 = f.slotId &&& 0x03 := shiftLeft_or_shiftRight _ hsymbol
  have h3lower : ((f.slotId &&& 0x03) <<< 6 ||| f.symbolId) &&& 0x3F = f.symbolId := shiftLeft_or_and_mask _ hsymbol
  have h5lower : (0x3C <<< 2 ||| f.startPrbu >>> 8) &&& 0x03 = f.startPrbu >>> 8 := shiftLeft_or_and_mask _ hstartHigh
  have hslot : (f.slotId >>> 2) <<< 2 ||| (f.slotId &&& 0x03) = f.slotId := shiftRight_shiftLeft_or_and_mask f.slotId 2
  have hstart : (f.startPrbu >>> 8) <<< 8 ||| (f.startPrbu &&& 0xFF) = f.startPrbu := shiftRight_shiftLeft_or_and_mask f.startPrbu 8
  rw [parseOranHeader, headerOctet_one hfr, headerOctet_two hsf hsl, headerOctet_three hsy, headerOctet_five hsp, headerOctet_six,
    headerOctet_seven hnp, h2upper, h2lower, h3upper, h3lower, h5lower, hslot, hstart, decode_encodeNumPrbu]

/-- Settles O27: an answered packet starts with a header whose fields fit, so `parseOranHeader_oranHeader` reads them back, and the planner
normalizes the PRB count that STEP passes to at least 1. -/
theorem oranHeaderRoundTrip : Obligations.OranHeaderRoundTrip := by
  constructor
  · intro f iq h hok
    rcases oranPacket_cases f iq with ⟨hfit, e⟩ | ⟨-, e⟩ <;> rw [e] at hok
    · obtain rfl := Except.ok.inj hok
      have hparse := parseOranHeader_oranHeader hfit iq
      exact ⟨congrArg OranFields.frameId hparse, congrArg OranFields.subframeId hparse, congrArg OranFields.slotId hparse,
        congrArg OranFields.symbolId hparse, congrArg OranFields.startPrbu hparse, congrArg OranFields.numPrbu hparse⟩
    · cases hok
  · intro s hplan
    exact Nat.one_le_iff_ne_zero.1 (planFacts hplan).nrb_pos

end Sys2Proof.Machine
end

section
/-! PROOFS. The eCPRI length field read back from the packet's octets (R97, R143). -/

namespace Sys2Proof.Machine

/-- The two octets of `be16` joined again, the first as the high one (R14, R69). -/
theorem be16_octets_joined (v : BitVec 16) :
    ((be16 v).getD 0 0).toNat <<< 8 ||| ((be16 v).getD 1 0).toNat = v.toNat := by
  have hjoin : v.extractLsb' 8 8 ++ v.extractLsb' 0 8 = v :=
    calc _ = v.extractLsb' 0 16 := BitVec.extractLsb'_append_extractLsb'_eq_extractLsb' rfl
      _ = v := BitVec.extractLsb'_eq_self
  calc ((be16 v).getD 0 0).toNat <<< 8 ||| ((be16 v).getD 1 0).toNat
      = (v.extractLsb' 8 8 ++ v.extractLsb' 0 8).toNat := (BitVec.toNat_append _ _).symm
    _ = v.toNat := congrArg BitVec.toNat hjoin

/-- An answered packet's length field does not wrap: the builder admits at most 0xFFFF payload octets (R140). -/
theorem ecpriPacket_lengthField {q : Nat} {pl p : List Octet} (h : ecpriPacket q pl = .ok p) :
    ((p.getD 2 0).toNat <<< 8) ||| (p.getD 3 0).toNat = pl.length := by
  rcases ecpriPacket_cases q pl with ⟨hfits, e⟩ | ⟨-, e⟩ <;> rw [e] at h
  · obtain rfl := Except.ok.inj h
    calc _ = ((be16 (.ofNat 16 pl.length)).getD 0 0).toNat <<< 8 ||| ((be16 (.ofNat 16 pl.length)).getD 1 0).toNat := rfl
      _ = (BitVec.ofNat 16 pl.length).toNat := be16_octets_joined _
      _ = pl.length := by rw [BitVec.toNat_ofNat, Nat.mod_eq_of_lt (Nat.lt_succ_of_le hfits)]
  · cases h

/-- Settles O28: the length field by `ecpriPacket_lengthField`, and the header's 8 octets by `ecpriPacket_length`. -/
theorem ecpriLengthField : Obligations.EcpriLengthField := by
  intro q pl p h
  have hlen : p.length = 8 + pl.length := ecpriPacket_length h
  exact ⟨ecpriPacket_lengthField h, by omega⟩

end Sys2Proof.Machine
end

section
/-! PROOFS. A run after a successful PLAN (R173): the counters of each packet, the error each packet raises, and the induction over RUN's packets
that carries the state from packet 0 to the first error or to FINISH. -/

namespace Sys2Proof.Machine

/-! ### The plan and the payload of a state that is ready to run -/

theorem State.readyToRun_iff (s : State) :
    s.readyToRun = true ↔
      s.phase = .planned ∧ s.planOk = true ∧ s.packetNo = 0 ∧ s.emitted = 0 ∧ s.ids = IdCounters.zero ∧ s.resTrailIfg = 0 ∧
        s.payloadReady = true := by
  simp only [State.readyToRun, State.runAtStart, Bool.and_eq_true, decide_eq_true_eq, and_assoc]

/-- The capture lasts at most 255 ms, so at most 25 radio frames (R162, R167). -/
theorem framesRadio_le {s : State} (h : s.planOk = true) : s.plan.framesRadio.toNat ≤ 25 := by
  obtain ⟨v, hv, hplan⟩ := (planOk_iff s).1 h
  obtain ⟨rfl, -, hrange, -⟩ := planChecks_eq_ok.1 hv
  have hms : s.cfg.captureMs.toNat ≤ 255 := by
    simp only [cfgOutOfRange, Bool.or_eq_false_iff, decide_eq_false_iff_not] at hrange
    omega
  have hval : s.plan.framesRadio.toNat = s.cfg.captureMs.toNat / 10 % 2 ^ 64 := by
    rw [hplan]; exact BitVec.toNat_ofNat _ _
  omega

/-- The periods of R165 nest: a run is 10 subframes of S slots for each radio frame. -/
theorem PlanFacts.totalPackets_eq {s : State} (hf : PlanFacts s) :
    s.plan.totalPackets.toNat = s.plan.pktsPerSlot.toNat * (s.plan.slotsPerSf.toNat * 10 * s.plan.framesRadio.toNat) := by
  rw [hf.total_eq, hf.frame_eq, hf.subframe_eq]; ring

theorem PlanFacts.pktsPerSlot_pos {s : State} (hf : PlanFacts s) : 0 < s.plan.pktsPerSlot.toNat := by
  have := hf.slot_eq; have := hf.pps_pos; omega

theorem PlanFacts.mul_pktsPerSlot_lt {s : State} (hf : PlanFacts s) {v : Nat} (hv : v < s.plan.slotsPerSf.toNat) :
    v * s.plan.pktsPerSlot.toNat < s.plan.totalPackets.toNat := by
  rw [hf.totalPackets_eq, Nat.mul_comm v]
  refine Nat.mul_lt_mul_of_pos_left ?_ hf.pktsPerSlot_pos
  calc v < s.plan.slotsPerSf.toNat * 10 := by omega
    _ ≤ s.plan.slotsPerSf.toNat * 10 * s.plan.framesRadio.toNat := Nat.le_mul_of_pos_right _ hf.frames_pos

theorem PlanFacts.pktsPerFrame_pos {s : State} (hf : PlanFacts s) : 0 < s.plan.pktsPerFrame.toNat := by
  have : 0 < s.plan.pktsPerSubframe.toNat := hf.subframe_eq ▸ Nat.mul_pos hf.pktsPerSlot_pos hf.slots_pos
  have := hf.frame_eq
  omega

/-- No read of POOL faults: every cursor falls on a written octet below `poolLen` (R64, R168, R182). -/
theorem State.poolOctet_of_payloadReady {s : State} (hplan : s.planOk = true) (hpay : s.payloadReady = true) (k : Nat) :
    ∃ b, s.poolOctet k = .ok b := by
  unfold State.poolOctet
  by_cases hfixed : s.cfg.fixedMode = true
  · obtain ⟨-, hpos, hcap⟩ := (planFacts hplan).pool_eq (of_decide_eq_true hfixed)
    have hlt : k % s.plan.poolLen.toNat < s.plan.poolLen.toNat := Nat.mod_lt _ (by omega)
    have hwritten : (Mem.read s.pool (k % s.plan.poolLen.toNat)).isSome = true := by
      simp only [State.payloadReady, hfixed, Bool.not_true, Bool.false_or, List.all_eq_true, List.mem_range] at hpay
      exact hpay _ hlt
    rw [if_pos hfixed]
    rcases s.readOctet_cases .pool (k % s.plan.poolLen.toNat) with ⟨b, hb, -⟩ | ⟨-, hout | hnone⟩
    · exact ⟨b, hb⟩
    · exact absurd (Nat.lt_of_lt_of_le hlt hcap) (Nat.not_lt.2 hout)
    · exact absurd hwritten (by rw [show Mem.read s.pool _ = none from hnone]; decide)
  · rw [if_neg hfixed]; exact ⟨_, rfl⟩

theorem State.poolOctets_of_poolOctet {s : State} (h : ∀ k, ∃ b, s.poolOctet k = .ok b) (k n : Nat) :
    ∃ bs, s.poolOctets k n = .ok bs := by
  induction n generalizing k with
  | zero => exact ⟨[], rfl⟩
  | succ n ih =>
    obtain ⟨b, hb⟩ := h k
    obtain ⟨bs, hbs⟩ := ih (k + 1)
    exact ⟨b :: bs, by simp only [State.poolOctets, hb, hbs]⟩

/-! ### The counters of packet p (R184 to R186) -/

/-- A counter that advances modulo m at every multiple of k counts the periods of k completed (R184, R185). -/
theorem succ_div_mod_eq_ite (p k m : Nat) :
    (p + 1) / k % m = if (p + 1) % k = 0 then (p / k % m + 1) % m else p / k % m := by
  by_cases h : (p + 1) % k = 0
  · rw [if_pos h, Nat.succ_div_of_dvd (Nat.dvd_of_mod_eq_zero h), Nat.mod_add_mod]
  · rw [if_neg h, Nat.succ_div_of_not_dvd (mt Nat.mod_eq_zero_of_dvd h)]

theorem idsAfter_slotId {pl : PlanRegs} (hS : 0 < pl.slotsPerSf.toNat) (p : Nat) :
    (idsAfter pl p).slotId.toNat = p / pl.pktsPerSlot.toNat % pl.slotsPerSf.toNat := by
  have hfits (n : Nat) : n % pl.slotsPerSf.toNat < 2 ^ 64 := (Nat.mod_lt n hS).trans pl.slotsPerSf.isLt
  induction p with
  | zero => simp [idsAfter, IdCounters.zero]
  | succ p ih =>
    rw [succ_div_mod_eq_ite, ← ih]
    simp only [idsAfter, advanceIds, apply_ite BitVec.toNat, BitVec.toNat_ofNat, Nat.mod_eq_of_lt (hfits _)]

theorem idsAfter_frameId (pl : PlanRegs) (p : Nat) :
    (idsAfter pl p).frameId.toNat = p / pl.pktsPerFrame.toNat % 256 := by
  induction p with
  | zero => simp [idsAfter, IdCounters.zero]
  | succ p ih =>
    rw [succ_div_mod_eq_ite, ← ih]
    simp only [idsAfter, advanceIds, frameIdModulus, apply_ite BitVec.toNat, BitVec.toNat_ofNat, Nat.reducePow, Nat.mod_mod]

theorem idsAfter_startPrbu_le (pl : PlanRegs) (p : Nat) : (idsAfter pl p).startPrbu.toNat ≤ pl.maxNrb.toNat := by
  cases p with
  | zero => simp [idsAfter, IdCounters.zero]
  | succ p =>
    simp only [idsAfter, advanceIds]
    split
    · simp
    next hlt =>
      have := Nat.mod_le ((idsAfter pl p).startPrbu.toNat + pl.nrbPerPkt.toNat) (2 ^ 16)
      rw [BitVec.toNat_ofNat]; omega

/-- Every slot value below S occurs: packet v · packets_per_slot carries v (R173, R185). -/
theorem exists_packet_with_slotId {s : State} (hf : PlanFacts s) {v : Nat} (hv : v < s.plan.slotsPerSf.toNat) :
    ∃ p, p < s.plan.totalPackets.toNat ∧ (idsAfter s.plan p).slotId.toNat = v :=
  ⟨v * s.plan.pktsPerSlot.toNat, hf.mul_pktsPerSlot_lt hv, by
    rw [idsAfter_slotId hf.slots_pos, Nat.mul_div_cancel _ hf.pktsPerSlot_pos, Nat.mod_eq_of_lt hv]⟩

theorem idsAfter_frameId_lt {s : State} (hplan : s.planOk = true) {p : Nat} (hp : p < s.plan.totalPackets.toNat) :
    (idsAfter s.plan p).frameId.toNat < 25 := by
  have hf := planFacts hplan
  rw [hf.total_eq] at hp
  have hframe : p / s.plan.pktsPerFrame.toNat < s.plan.framesRadio.toNat := Nat.div_lt_of_lt_mul hp
  have := Nat.mod_le (p / s.plan.pktsPerFrame.toNat) 256
  have := framesRadio_le hplan
  rw [idsAfter_frameId]; omega

/-! ### The error of a packet -/

/-- The error that packet p of a run started in `s` raises, the first of the builders' to fail (R131, R153, R206). -/
def State.packetError (s : State) (p : Nat) : Option ErrCode :=
  if 63 < (idsAfter s.plan p).slotId.toNat ∨ (256 ≤ s.plan.nrbPerPkt.toNat ∧ s.plan.nrbPerPkt.toNat ≤ 272) then
    some .oranFieldOverflow
  else if s.cfg.maxPkt.toNat < s.plan.frameLen.toNat then some .ethernetFrameTooLarge
  else none

/-- Of the O-RAN fields of a planned packet, only `slot_id` and `num_prbu` can be out of range: the others are bounded by their widths or by the
plan (R131, R185, R186). -/
theorem oranFieldsFit_iff_of_ids {s t : State} {p : Nat} (hf : PlanFacts s) (hids : t.ids = idsAfter s.plan p) (hplan : t.plan = s.plan) :
    oranFieldsFit t.oranFields = true ↔
      ¬ (63 < (idsAfter s.plan p).slotId.toNat ∨ (256 ≤ s.plan.nrbPerPkt.toNat ∧ s.plan.nrbPerPkt.toNat ≤ 272)) := by
  have hframe := (idsAfter s.plan p).frameId.isLt
  have hsubframe := (idsAfter s.plan p).subframeId.isLt
  have hsymbol := (idsAfter s.plan p).symbolId.isLt
  have hstart := idsAfter_startPrbu_le s.plan p
  have hle := hf.nrb_le
  have hmax := hf.max_le
  rw [oranFieldsFit_iff]
  simp only [State.oranFields, hids, hplan]
  omega

/-! ### RUN's packets one after another -/

/-- RUN, started in `s`, has emitted p packets and is in `t` (R44 to R46, R190). -/
structure State.RunReaches (s : State) (p : Nat) (t : State) : Prop where
  params_eq : t.params = s.params
  cfg_eq : t.cfg = s.cfg
  plan_eq : t.plan = s.plan
  pool_eq : t.pool = s.pool
  err_eq : t.err = s.err
  packetNo_eq : t.packetNo.toNat = p
  emitted_eq : t.emitted.toNat = p * s.plan.frameLen.toNat
  ids_eq : t.ids = idsAfter s.plan (p - 1)

theorem State.runReaches_zero {s : State} (h : s.readyToRun = true) : s.RunReaches 0 s := by
  obtain ⟨-, -, hno, hemitted, hids, -⟩ := s.readyToRun_iff.1 h
  exact ⟨rfl, rfl, rfl, rfl, rfl, by rw [hno]; rfl, by rw [hemitted, Nat.zero_mul]; rfl, hids⟩

/-- STEP builds packet p with p advances, none of them at packet 0 (R184, R190). -/
theorem State.RunReaches.advanced_ids {s t : State} {p : Nat} (h : s.RunReaches p t) : t.advanced.ids = idsAfter s.plan p := by
  cases p with
  | zero => rw [t.advanced_ids_first h.packetNo_eq, h.ids_eq]
  | succ p =>
    have hno := h.packetNo_eq
    rw [t.advanced_ids_later (by omega), hno, h.plan_eq, h.ids_eq]; rfl

theorem State.RunReaches.exists_iqSlice {s t : State} {p : Nat} (hs : s.readyToRun = true) (h : s.RunReaches p t) :
    ∃ iq, t.iqSlice t.packetNo.toNat = .ok iq ∧ iq.length = s.plan.iqPerPkt.toNat := by
  obtain ⟨-, hplan, -, -, -, -, hpay⟩ := s.readyToRun_iff.1 hs
  obtain ⟨iq, hiq⟩ := State.poolOctets_of_poolOctet (State.poolOctet_of_payloadReady hplan hpay)
    (t.packetNo.toNat * t.plan.iqPerPkt.toNat) t.plan.iqPerPkt.toNat
  have hslice : t.iqSlice t.packetNo.toNat = .ok iq :=
    (State.poolOctets_congr h.params_eq h.cfg_eq h.plan_eq h.pool_eq _ _).trans hiq
  exact ⟨iq, hslice, h.plan_eq ▸ State.iqSlice_length hslice⟩

/-- The builders on packet p: a frame of the planned length, or `packetError` (R189, R206). -/
theorem State.RunReaches.buildPacket_cases {s t : State} {p : Nat} {iq : List Octet} (hs : s.readyToRun = true)
    (h : s.RunReaches p t) (hiq : iq.length = s.plan.iqPerPkt.toNat) :
    (∃ fr, (t.sliced iq).buildPacket iq = .ok fr ∧ fr.length = s.plan.frameLen.toNat ∧ s.packetError p = none) ∨
      ∃ c, (t.sliced iq).buildPacket iq = .error c ∧ s.packetError p = some c := by
  have hf := planFacts (s.readyToRun_iff.1 hs).2.1
  have hfit := oranFieldsFit_iff_of_ids (t := t.sliced iq) hf h.advanced_ids ((t.sliced_plan iq).trans h.plan_eq)
  have hlen : frameLen (16 + iq.length) (t.sliced iq).cfg.minIfg.toNat = s.plan.frameLen.toNat := by
    rw [hiq, t.sliced_cfg, h.cfg_eq, hf.frameLen_eq]
  have hmax : (t.sliced iq).cfg.maxPkt = s.cfg.maxPkt := by rw [t.sliced_cfg, h.cfg_eq]
  unfold State.packetError
  rcases (t.sliced iq).buildPacket_cases iq with ⟨fr, hok, hfits, hfr, hle⟩ | ⟨herr, hno⟩ | ⟨-, -, hbig⟩ | ⟨herr, hfits, hlong⟩
  · exact .inl ⟨fr, hok, hfr.trans hlen, by rw [if_neg (hfit.1 hfits), if_neg (by rw [hfr, hlen, hmax] at hle; omega)]⟩
  · exact .inr ⟨_, herr, if_pos (by_contra fun hn => by rw [hfit.2 hn] at hno; cases hno)⟩
  · -- R141 cannot fail here: a slice is at most 28 · 273 octets.
    have := hf.iq_eq; have := hf.nrb_le; have := hf.max_le
    omega
  · exact .inr ⟨_, herr, by rw [if_neg (hfit.1 hfits), if_pos (by rw [hlen, hmax] at hlong; exact hlong)]⟩

/-- A packet without an error is emitted: one more packet, F more octets (R190). -/
theorem State.RunReaches.stepBody_done {s t : State} {p : Nat} (hs : s.readyToRun = true) (h : s.RunReaches p t)
    (hp : p < s.plan.totalPackets.toNat) (hnone : s.packetError p = none) :
    ∃ u, stepBody t = .done u ∧ s.RunReaches (p + 1) u := by
  obtain ⟨iq, hslice, hiq⟩ := h.exists_iqSlice hs
  rcases h.buildPacket_cases hs hiq with ⟨fr, hok, hfr, -⟩ | ⟨c, -, hsome⟩
  · refine ⟨(t.sliced iq).frameEmitted fr, by simp only [stepBody, hslice, hok], ?_⟩
    have hT := s.plan.totalPackets.isLt
    have hno := h.packetNo_eq
    have hfits : (p + 1) * s.plan.frameLen.toNat < 2 ^ 128 :=
      calc (p + 1) * s.plan.frameLen.toNat < 2 ^ 64 * 2 ^ 64 := Nat.mul_lt_mul'' (by omega) s.plan.frameLen.isLt
        _ = 2 ^ 128 := by decide
    refine ⟨?_, ?_, ?_, ?_, ?_, ?_, ?_, ?_⟩
    · simp [h.params_eq]
    · simp [h.cfg_eq]
    · simp [h.plan_eq]
    · simp [h.pool_eq]
    · simp [h.err_eq]
    · simp only [State.frameEmitted_packetNo, State.sliced_packetNo]
      bv_omega
    · rw [State.frameEmitted_emitted, t.sliced_emitted, h.emitted_eq, hfr, BitVec.toNat_ofNat, ← Nat.succ_mul, Nat.mod_eq_of_lt hfits]
    · exact h.advanced_ids
  · rw [hnone] at hsome; cases hsome

/-- A packet with an error is not counted and not emitted (R190, R205). -/
theorem State.RunReaches.stepBody_raised {s t : State} {p : Nat} {c : ErrCode} (hs : s.readyToRun = true) (h : s.RunReaches p t)
    (hsome : s.packetError p = some c) :
    ∃ u, stepBody t = .raised c u ∧ u.packetNo = t.packetNo ∧ u.emitted = t.emitted := by
  obtain ⟨iq, hslice, hiq⟩ := h.exists_iqSlice hs
  rcases h.buildPacket_cases hs hiq with ⟨-, -, -, hnone⟩ | ⟨d, herr, hd⟩
  · rw [hnone] at hsome; cases hsome
  · obtain rfl := Option.some.inj (hd.symm.trans hsome)
    exact ⟨t.sliced iq, by simp only [stepBody, hslice, herr], t.sliced_packetNo iq, t.sliced_emitted iq⟩

/-- RUN's loop passes the packets that raise no error (R191). -/
theorem runLoop_of_no_error {s : State} (hs : s.readyToRun = true) {p : Nat} (hp : p ≤ s.plan.totalPackets.toNat)
    (hnone : ∀ q, q < p → s.packetError q = none) (m : Nat) :
    ∃ t, runLoop (m + p) s = runLoop m t ∧ s.RunReaches p t := by
  induction p generalizing m with
  | zero => exact ⟨s, rfl, s.runReaches_zero hs⟩
  | succ p ih =>
    obtain ⟨t, ht, hreach⟩ := ih (by omega) (fun q hq => hnone q (by omega)) (m + 1)
    obtain ⟨u, hu, hreach'⟩ := hreach.stepBody_done hs (by omega) (hnone p (by omega))
    refine ⟨u, ?_, hreach'⟩
    rw [show m + (p + 1) = m + 1 + p by omega, ht, runLoop, hu]

theorem exec_run_of_readyToRun {s : State} (hs : s.readyToRun = true) :
    exec .run s = (runLoop s.plan.totalPackets.toNat s).outcome := by
  obtain ⟨hphase, -, hno, -⟩ := s.readyToRun_iff.1 hs
  have hrun : runLegality s = .runs := (runLegality_runs s).2 (.inl hphase)
  calc exec .run s = sequencerCommand (runLegality s) runBody s := rfl
    _ = (runBody s).outcome := by rw [hrun]; rfl
    _ = (runLoop s.plan.totalPackets.toNat s).outcome := by rw [runBody, hno]; rfl

/-- The first packet that raises an error ends the run in ERROR, after the packets before it (R191, R205). -/
theorem exec_run_of_packetError {s : State} (hs : s.readyToRun = true) {p : Nat} {c : ErrCode} (hp : p < s.plan.totalPackets.toNat)
    (hnone : ∀ q, q < p → s.packetError q = none) (hsome : s.packetError p = some c) :
    ∃ t, exec .run s = .next t ∧ t.phase = .error ∧ t.err = c ∧ t.packetNo.toNat = p ∧
      t.emitted.toNat = p * s.plan.frameLen.toNat := by
  obtain ⟨m, hm⟩ : ∃ m, s.plan.totalPackets.toNat = m + 1 + p := ⟨s.plan.totalPackets.toNat - p - 1, by omega⟩
  obtain ⟨t, ht, hreach⟩ := runLoop_of_no_error hs hp.le hnone (m + 1)
  obtain ⟨u, hu, hno, hemitted⟩ := hreach.stepBody_raised hs hsome
  refine ⟨u.sequencerError c, ?_, rfl, rfl, ?_, ?_⟩
  · rw [exec_run_of_readyToRun hs, hm, ht, runLoop, hu]; rfl
  · rw [State.sequencerError_packetNo, hno, hreach.packetNo_eq]
  · rw [State.sequencerError_emitted, hemitted, hreach.emitted_eq]

/-- A run whose packets raise no error ends as FINISH does (R191). -/
theorem exec_run_of_no_error {s : State} (hs : s.readyToRun = true)
    (hnone : ∀ q, q < s.plan.totalPackets.toNat → s.packetError q = none) :
    ∃ t, exec .run s = (finishBody t).outcome ∧ s.RunReaches s.plan.totalPackets.toNat t := by
  obtain ⟨t, ht, hreach⟩ := runLoop_of_no_error hs le_rfl hnone 0
  rw [Nat.zero_add] at ht
  exact ⟨t, by rw [exec_run_of_readyToRun hs, ht, runLoop], hreach⟩

/-! ### The five outcomes -/

theorem exec_run_over_budget {s : State} (hs : s.readyToRun = true)
    (hnone : ∀ q, q < s.plan.totalPackets.toNat → s.packetError q = none)
    (hover : s.plan.totalBytes.toNat < s.plan.totalPackets.toNat * s.plan.frameLen.toNat) :
    ∃ t, exec .run s = .next t ∧ t.phase = .error ∧ t.err = .planInfeasible ∧ t.packetNo.toNat = s.plan.totalPackets.toNat ∧
      t.emitted.toNat = s.plan.totalPackets.toNat * s.plan.frameLen.toNat := by
  obtain ⟨t, ht, hreach⟩ := exec_run_of_no_error hs hnone
  rcases finishBody_cases t with ⟨-, hraised⟩ | ⟨hle, -⟩
  · exact ⟨t.sequencerError .planInfeasible, by rw [ht, hraised]; rfl, rfl, rfl, hreach.packetNo_eq, hreach.emitted_eq⟩
  · rw [hreach.emitted_eq, hreach.plan_eq] at hle; omega

theorem exec_run_within_budget {s : State} (hs : s.readyToRun = true)
    (hnone : ∀ q, q < s.plan.totalPackets.toNat → s.packetError q = none)
    (hle : s.plan.totalPackets.toNat * s.plan.frameLen.toNat ≤ s.plan.totalBytes.toNat) :
    ∃ t, exec .run s = .next t ∧ t.phase = .done ∧ t.err = s.err ∧ t.packetNo.toNat = s.plan.totalPackets.toNat ∧
      t.emitted.toNat = s.plan.totalBytes.toNat ∧
      t.resTrailIfg.toNat = s.plan.totalBytes.toNat - s.plan.totalPackets.toNat * s.plan.frameLen.toNat := by
  obtain ⟨t, ht, hreach⟩ := exec_run_of_no_error hs hnone
  have hB := s.plan.totalBytes.isLt
  rcases finishBody_cases t with ⟨hover, -⟩ | ⟨-, hdone⟩
  · rw [hreach.emitted_eq, hreach.plan_eq] at hover; omega
  · rw [hreach.emitted_eq, hreach.plan_eq] at hdone
    refine ⟨_, ht.trans (congrArg Body.outcome hdone), rfl, hreach.err_eq, hreach.packetNo_eq, ?_, ?_⟩
    · rw [State.finished_emitted, State.emit_emitted, BitVec.toNat_ofNat, List.length_replicate, hreach.emitted_eq, Nat.mod_eq_of_lt] <;>
        omega
    · rw [State.finished_resTrailIfg, BitVec.toNat_ofNat]
      exact Nat.mod_eq_of_lt (by omega)

/-- Packets whose slot value and PRB count can be encoded and whose frame is within the limit raise no error. -/
theorem State.packetError_eq_none {s : State} {p : Nat} (hf : PlanFacts s)
    (hN : ¬ (256 ≤ s.plan.nrbPerPkt.toNat ∧ s.plan.nrbPerPkt.toNat ≤ 272)) (hF : ¬ s.cfg.maxPkt.toNat < s.plan.frameLen.toNat)
    (hslot : p / s.plan.pktsPerSlot.toNat % s.plan.slotsPerSf.toNat < 64) : s.packetError p = none := by
  rw [State.packetError, idsAfter_slotId hf.slots_pos, if_neg (by omega), if_neg hF]

/-- Settles O43: each case names the first packet with an error, packet 0 or packet 64 · packets_per_slot, or leaves the end to FINISH. -/
theorem runOutcomeAfterPlan : Obligations.RunOutcomeAfterPlan := by
  rintro s F S N T B hs rfl rfl rfl rfl rfl
  have hplan : s.planOk = true := (s.readyToRun_iff.1 hs).2.1
  have hf := planFacts hplan
  have hfirst : 0 < s.plan.totalPackets.toNat := by simpa using hf.mul_pktsPerSlot_lt hf.slots_pos
  refine ⟨fun v hv => exists_packet_with_slotId hf hv, fun p hp => idsAfter_frameId_lt hplan hp, ?_⟩
  split_ifs with hN hF hS hB
  · have herr : s.packetError 0 = some .oranFieldOverflow := if_pos (.inr hN)
    simpa using exec_run_of_packetError hs hfirst (by simp) herr
  · have herr : s.packetError 0 = some .ethernetFrameTooLarge := by
      rw [State.packetError, if_neg (by simp [idsAfter, IdCounters.zero, hN]), if_pos hF]
    simpa using exec_run_of_packetError hs hfirst (by simp) herr
  · have herr : s.packetError (64 * s.plan.pktsPerSlot.toNat) = some .oranFieldOverflow := by
      rw [State.packetError, idsAfter_slotId hf.slots_pos, Nat.mul_div_cancel _ hf.pktsPerSlot_pos, Nat.mod_eq_of_lt hS]
      exact if_pos (.inl (by decide))
    refine exec_run_of_packetError hs (hf.mul_pktsPerSlot_lt hS) (fun q hq => ?_) herr
    exact State.packetError_eq_none hf hN hF ((Nat.mod_le _ _).trans_lt (Nat.div_lt_of_lt_mul (by rwa [Nat.mul_comm])))
  all_goals
    have hnone (q : Nat) : s.packetError q = none :=
      State.packetError_eq_none hf hN hF ((Nat.mod_lt _ hf.slots_pos).trans_le (Nat.not_lt.1 hS))
  · exact exec_run_over_budget hs (fun q _ => hnone q) hB
  · exact exec_run_within_budget hs (fun q _ => hnone q) (Nat.not_lt.1 hB)

end Sys2Proof.Machine
end

section
/-! PROOFS. The sequencer commands of spec/45_assembler.md: when R180 makes them Illegal or ignored (R194), CLEAR (R193), the closed forms of the
identifiers (R185, R186), and RUN as STEPs and FINISH (R191). -/

namespace Sys2Proof.Machine

/-! ### Illegal words and commands (R92, R180, R194) -/

theorem State.illegalCommand_of_error {s : State} (h : s.phase = .error) : s.illegalCommand = s := if_pos h

theorem State.illegalCommand_of_ne_error {s : State} (h : s.phase ≠ .error) : s.illegalCommand = s.sequencerError .illegalCommand :=
  if_neg h

theorem step_of_illegal_word {s : State} {w : Word} {es : List HostEvent} {e : IllegalWord}
    (hs : s.script = .writeReg 0x01 w :: es) (hd : decode w = .error e) :
    step s = .next (State.illegalCommand { s with script := es }) := by
  calc step s = issueCommand w { s with script := es } := step_of_script hs
    _ = .next (State.illegalCommand { s with script := es }) := by simp only [issueCommand, hd]

theorem planLegality_illegal (s : State) :
    planLegality s = .illegal ↔ s.phase = .planned ∨ s.phase = .running ∨ s.phase = .done := by
  unfold planLegality; cases s.phase <;> simp

theorem stepLegality_illegal (s : State) :
    stepLegality s = .illegal ↔
      s.phase = .idle ∨ s.phase = .done ∨ (s.phase = .running ∧ s.plan.totalPackets.toNat ≤ s.packetNo.toNat) := by
  unfold stepLegality; cases s.phase <;> simp

theorem runLegality_illegal (s : State) : runLegality s = .illegal ↔ s.phase = .idle ∨ s.phase = .done := by
  unfold runLegality; cases s.phase <;> simp

theorem finishLegality_illegal (s : State) :
    finishLegality s = .illegal ↔
      s.phase = .idle ∨ s.phase = .planned ∨ s.phase = .done ∨ (s.phase = .running ∧ s.packetNo ≠ s.plan.totalPackets) := by
  unfold finishLegality; cases s.phase <;> simp

/-- An Illegal command enters ERROR: R180 marks a command Illegal only where it does not ignore it, outside ERROR (R194, R205). -/
theorem sequencerCommand_of_illegal {l : Legality} {s : State} (hignored : l = .ignored ↔ s.phase = .error) (hl : l = .illegal)
    (body : State → Body) : sequencerCommand l body s = .next (s.sequencerError .illegalCommand) := by
  subst hl
  have hne : s.phase ≠ .error := mt hignored.2 (by decide)
  exact congrArg Host.Outcome.next (State.illegalCommand_of_ne_error hne)

theorem sequencerCommand_of_error {l : Legality} {s : State} (hignored : l = .ignored ↔ s.phase = .error) (hp : s.phase = .error)
    (body : State → Body) : sequencerCommand l body s = .next s := by
  rw [hignored.2 hp]; rfl

/-- Settles O5: an illegal word and an Illegal command are the same error entry, and in ERROR both are ignored. -/
theorem illegalCommandsAreFatalOutsideError : Obligations.IllegalCommandsAreFatalOutsideError := by
  refine ⟨fun s w es e hs hd => ?_, fun s i => ?_, fun s i => ?_⟩
  · rw [step_of_illegal_word hs hd]
    exact ⟨fun hp => congrArg Host.Outcome.next (State.illegalCommand_of_ne_error hp),
      fun hp => congrArg Host.Outcome.next (State.illegalCommand_of_error hp)⟩
  all_goals obtain ⟨hplan, hstep, hrun, hfinish⟩ := legality_ignored s
  · rintro (⟨rfl, h⟩ | ⟨rfl, h⟩ | ⟨rfl, h⟩ | ⟨rfl, h⟩)
    · exact sequencerCommand_of_illegal hplan ((planLegality_illegal s).2 h) planBody
    · exact sequencerCommand_of_illegal hstep ((stepLegality_illegal s).2 h) stepBody
    · exact sequencerCommand_of_illegal hrun ((runLegality_illegal s).2 h) runBody
    · exact sequencerCommand_of_illegal hfinish ((finishLegality_illegal s).2 h) finishBody
  · rintro (rfl | rfl | rfl | rfl) hp
    · exact sequencerCommand_of_error hplan hp planBody
    · exact sequencerCommand_of_error hstep hp stepBody
    · exact sequencerCommand_of_error hrun hp runBody
    · exact sequencerCommand_of_error hfinish hp finishBody

/-! ### CLEAR (R193) -/

/-- In IDLE no OUT octet is readable, whatever OUT holds (R67). -/
theorem State.hostOctet_out_of_idle {s : State} (h : s.phase = .idle) (a : Nat) :
    s.hostOctet .out a = .error .unspecifiedOutOctet := by
  have hread : s.outReadable a = false := by simp [State.outReadable, h]
  simp [State.hostOctet, hread]

theorem State.err_eq_of_statusWf {s : State} (h : s.statusWf = true) (hp : s.phase ≠ .error) : s.err = .noError := by
  simp only [State.statusWf, Bool.and_eq_true, beq_iff_eq, decide_eq_decide] at h
  obtain ⟨⟨herr, -⟩, -⟩ := h
  exact herr.2 hp

theorem State.sequencerWf_of_idle {s : State} (hp : s.phase = .idle) (h : s.sequencerWf = true) :
    s.plan = PlanRegs.zero ∧ s.packetNo = 0 ∧ s.emitted = 0 ∧ s.ids = IdCounters.zero ∧ s.resTrailIfg = 0 := by
  simpa only [State.sequencerWf, hp, State.runAtStart, Bool.and_eq_true, decide_eq_true_eq, and_assoc] using h

/-- In IDLE the invariant leaves CLEAR nothing but LERR and LOCKED to change. -/
theorem State.cleared_of_idle {s : State} (hinv : s.invariant = true) (hp : s.phase = .idle) :
    s.cleared = { s with lerr := .noError, locked := false } := by
  simp only [State.invariant, Bool.and_eq_true] at hinv
  obtain ⟨⟨-, hstatus⟩, hseq⟩ := hinv
  have herr : s.err = .noError := State.err_eq_of_statusWf hstatus (by rw [hp]; decide)
  obtain ⟨hplan, hno, hemitted, hids, hifg⟩ := State.sequencerWf_of_idle hp hseq
  simp only [State.cleared, hp, herr, hplan, hno, hemitted, hids, hifg]

/-- Settles O32: CLEAR answers `cleared`, which is in IDLE, and writes what IDLE already holds when it starts there. -/
theorem clearResult : Obligations.ClearResult := by
  intro s
  have hclear : exec .clear s = .next s.cleared := rfl
  exact ⟨⟨s.cleared, hclear, State.hostOctet_out_of_idle rfl⟩,
    fun hinv hp => hclear.trans (congrArg Host.Outcome.next (State.cleared_of_idle hinv hp)), hclear⟩

/-! ### The identifiers of packet p (R184 to R186) -/

/-- A counter that starts at 0 and advances modulo m at every multiple of k has the closed form of R185. -/
theorem toNat_of_periodic_counter {w k m : Nat} {c : Nat → BitVec w} (hm : 0 < m) (hw : m ≤ 2 ^ w) (hzero : c 0 = 0)
    (hsucc : ∀ p, c (p + 1) = if (p + 1) % k = 0 then BitVec.ofNat w (((c p).toNat + 1) % m) else c p) (p : Nat) :
    (c p).toNat = p / k % m := by
  have hfits (n : Nat) : n % m < 2 ^ w := (Nat.mod_lt n hm).trans_le hw
  induction p with
  | zero => simp [hzero]
  | succ p ih =>
    rw [succ_div_mod_eq_ite, ← ih, hsucc]
    simp only [apply_ite BitVec.toNat, BitVec.toNat_ofNat, Nat.mod_eq_of_lt (hfits _)]

theorem idsAfter_symbolId (pl : PlanRegs) (p : Nat) : (idsAfter pl p).symbolId.toNat = p / pl.pktsPerSymbol.toNat % 14 :=
  toNat_of_periodic_counter (c := fun p => (idsAfter pl p).symbolId) (by decide) (by decide) rfl (fun _ => rfl) p

theorem idsAfter_subframeId (pl : PlanRegs) (p : Nat) :
    (idsAfter pl p).subframeId.toNat = p / pl.pktsPerSubframe.toNat % 10 :=
  toNat_of_periodic_counter (c := fun p => (idsAfter pl p).subframeId) (by decide) (by decide) rfl (fun _ => rfl) p

theorem idsAfter_ecpriSeqId (pl : PlanRegs) (p : Nat) : (idsAfter pl p).ecpriSeqId.toNat = p % 255 := by
  have hfits : p % 255 < 2 ^ 8 := (Nat.mod_lt p (by decide)).trans (by decide)
  cases p with
  | zero => rfl
  | succ p => simp only [idsAfter, advanceIds, ecpriSeqModulus, BitVec.toNat_ofNat, Nat.mod_eq_of_lt hfits]

/-- Every packet of a symbol starts below the symbol's PRB count (R164, R186). -/
theorem PlanFacts.startPrbu_lt {s : State} (hf : PlanFacts s) (p : Nat) :
    p % s.plan.pktsPerSymbol.toNat * s.plan.nrbPerPkt.toNat < s.plan.maxNrb.toNat := by
  have hmod : p % s.plan.pktsPerSymbol.toNat < s.plan.pktsPerSymbol.toNat := Nat.mod_lt p hf.pps_pos
  calc p % s.plan.pktsPerSymbol.toNat * s.plan.nrbPerPkt.toNat
      ≤ (s.plan.pktsPerSymbol.toNat - 1) * s.plan.nrbPerPkt.toNat := Nat.mul_le_mul_right _ (by omega)
    _ < s.plan.maxNrb.toNat := hf.pps_lower

/-- The wrap of `start_prbu` (R184) falls on the first packet of a symbol: the packets of a symbol are the fewest that reach its PRB count
(R164). -/
theorem PlanFacts.maxNrb_le_iff {s : State} (hf : PlanFacts s) (p : Nat) :
    s.plan.maxNrb.toNat ≤ p % s.plan.pktsPerSymbol.toNat * s.plan.nrbPerPkt.toNat + s.plan.nrbPerPkt.toNat ↔
      p % s.plan.pktsPerSymbol.toNat + 1 = s.plan.pktsPerSymbol.toNat := by
  have hmod : p % s.plan.pktsPerSymbol.toNat < s.plan.pktsPerSymbol.toNat := Nat.mod_lt p hf.pps_pos
  rw [← Nat.succ_mul]
  constructor
  · intro hreach
    by_contra hne
    have hle : (p % s.plan.pktsPerSymbol.toNat + 1) * s.plan.nrbPerPkt.toNat ≤
        (s.plan.pktsPerSymbol.toNat - 1) * s.plan.nrbPerPkt.toNat := Nat.mul_le_mul_right _ (by omega)
    exact absurd (hreach.trans hle) (Nat.not_le.2 hf.pps_lower)
  · intro hlast
    rw [Nat.succ_eq_add_one, hlast]; exact hf.pps_upper

theorem idsAfter_startPrbu {s : State} (hf : PlanFacts s) (p : Nat) :
    (idsAfter s.plan p).startPrbu.toNat = p % s.plan.pktsPerSymbol.toNat * s.plan.nrbPerPkt.toNat := by
  induction p with
  | zero => simp [idsAfter, IdCounters.zero]
  | succ p ih =>
    have hlt := hf.startPrbu_lt (p + 1)
    have hmax := hf.max_le
    rw [← Nat.mod_add_mod] at hlt ⊢
    simp only [idsAfter, advanceIds, ih, ge_iff_le, hf.maxNrb_le_iff]
    split
    next hlast => rw [hlast, Nat.mod_self, Nat.zero_mul]; rfl
    next hinner =>
      have hmod : p % s.plan.pktsPerSymbol.toNat < s.plan.pktsPerSymbol.toNat := Nat.mod_lt p hf.pps_pos
      have hsame : p % s.plan.pktsPerSymbol.toNat + 1 < s.plan.pktsPerSymbol.toNat := by omega
      rw [Nat.mod_eq_of_lt hsame, Nat.succ_mul] at hlt ⊢
      rw [BitVec.toNat_ofNat, Nat.mod_eq_of_lt (by omega)]

theorem idsAfter_eq_idsAt {s : State} (hf : PlanFacts s) (p : Nat) : idsAfter s.plan p = idsAt s.plan p := by
  simp only [idsAt, ← idsAfter_frameId, ← idsAfter_subframeId, ← idsAfter_slotId hf.slots_pos, ← idsAfter_symbolId,
    ← idsAfter_startPrbu hf, ← idsAfter_ecpriSeqId s.plan, BitVec.ofNat_toNat, BitVec.setWidth_eq]

/-- Settles O38: each counter by induction on the packets, and `start_prbu` by where a symbol's last packet falls. -/
theorem identifiersFollowClosedForms : Obligations.IdentifiersFollowClosedForms := by
  intro s p hplan
  have hf := planFacts hplan
  have hle : (idsAfter s.plan p).startPrbu.toNat ≤ 272 := by
    have := hf.startPrbu_lt p
    have := hf.max_le
    rw [idsAfter_startPrbu hf]; omega
  exact ⟨idsAfter_symbolId s.plan p, idsAfter_slotId hf.slots_pos p, idsAfter_subframeId s.plan p, idsAfter_frameId s.plan p,
    idsAfter_ecpriSeqId s.plan p, idsAfter_startPrbu hf p, hle, idsAfter_eq_idsAt hf p⟩

/-! ### RUN, one packet at a time (R190, R191) -/

theorem exec_step_of_legal {s : State}
    (h : s.phase = .planned ∨ (s.phase = .running ∧ s.packetNo.toNat < s.plan.totalPackets.toNat)) :
    exec .step s = (stepBody s).outcome := by
  calc exec .step s = sequencerCommand (stepLegality s) stepBody s := rfl
    _ = (stepBody s).outcome := by rw [(stepLegality_runs s).2 h]; rfl

theorem exec_run_of_legal {s : State} (h : s.phase = .planned ∨ s.phase = .running) : exec .run s = (runBody s).outcome := by
  calc exec .run s = sequencerCommand (runLegality s) runBody s := rfl
    _ = (runBody s).outcome := by rw [(runLegality_runs s).2 h]; rfl

theorem exec_finish_of_legal {s : State} (h : s.phase = .running ∧ s.packetNo = s.plan.totalPackets) :
    exec .finish s = (finishBody s).outcome := by
  calc exec .finish s = sequencerCommand (finishLegality s) finishBody s := rfl
    _ = (finishBody s).outcome := by rw [(finishLegality_runs s).2 h]; rfl

theorem stepBody_eq_done {s t : State} (h : stepBody s = .done t) :
    t.phase = .running ∧ t.plan = s.plan ∧ t.packetNo = s.packetNo + 1 := by
  rcases stepBody_cases s with ⟨f, -, e⟩ | ⟨iq, -, ⟨c, -, e⟩ | ⟨fr, -, e⟩⟩ <;> rw [h] at e
  · cases e
  · cases e
  · obtain rfl := Body.done.inj e
    simp

theorem runBody_of_no_packets_left {s : State} (h : s.plan.totalPackets.toNat ≤ s.packetNo.toNat) : runBody s = finishBody s := by
  rw [runBody, Nat.sub_eq_zero_of_le h, runLoop]

/-- A STEP that completes leaves RUN one packet fewer (R191). -/
theorem runBody_of_stepBody_done {s t : State} (hleft : s.packetNo.toNat < s.plan.totalPackets.toNat) (h : stepBody s = .done t) :
    runBody s = runBody t := by
  obtain ⟨-, hplan, hno⟩ := stepBody_eq_done h
  have hT := s.plan.totalPackets.isLt
  have hcount : s.plan.totalPackets.toNat - s.packetNo.toNat = t.plan.totalPackets.toNat - t.packetNo.toNat + 1 := by
    rw [hplan, hno]; bv_omega
  simp only [runBody, hcount, runLoop, h]

/-- A STEP that raises or faults ends RUN as it ends STEP (R191). -/
theorem runBody_of_stepBody_stops {s : State} (hleft : s.packetNo.toNat < s.plan.totalPackets.toNat)
    (h : ∀ t, stepBody s ≠ .done t) : runBody s = stepBody s := by
  obtain ⟨n, hn⟩ : ∃ n, s.plan.totalPackets.toNat - s.packetNo.toNat = n + 1 :=
    Nat.exists_eq_add_one.2 (Nat.sub_pos_of_lt hleft)
  rw [runBody, hn, runLoop]
  cases hbody : stepBody s with
  | done t => exact absurd hbody (h t)
  | raised c t => rfl
  | faulted f => rfl

/-- Settles O40: STEP and RUN are both legal, and RUN's loop begins with STEP's body. -/
theorem runIsStepsThenFinish : Obligations.RunIsStepsThenFinish := by
  refine ⟨fun s hphase hleft => ?_, fun s hphase hno => ?_⟩
  · have hstops := runBody_of_stepBody_stops hleft
    rw [exec_run_of_legal hphase, exec_step_of_legal (hphase.imp_right fun h => ⟨h, hleft⟩)]
    cases hbody : stepBody s with
    | done t =>
      have hrunning : t.phase = .running := (stepBody_eq_done hbody).1
      rw [runBody_of_stepBody_done hleft hbody, ← exec_run_of_legal (.inr hrunning)]
      simp only [Body.outcome, hrunning, reduceCtorEq, if_false]
    | raised c t =>
      rw [hstops (by simp [hbody]), hbody]
      simp only [Body.outcome, State.sequencerError_phase, if_true]
    | faulted f =>
      rw [hstops (by simp [hbody]), hbody]
      rfl
  · rw [exec_run_of_legal (.inr hphase), exec_finish_of_legal ⟨hphase, hno⟩, runBody_of_no_packets_left (by rw [hno])]

end Sys2Proof.Machine
end

section
/-! PROOFS. Phase ERROR: which check of PLAN enters it (R204), and that CLEAR and hardware reset alone leave it (R209). -/

namespace Sys2Proof.Machine

/-! ### The checks of PLAN as arithmetic (R160 to R169) -/

theorem planValues_totalBytes (c : CfgRegs) : (planValues c).totalBytes = c.lineRate.toNat * c.captureMs.toNat * 125000 := by
  simp only [planValues]; omega

theorem cfgOutOfRange_iff (c : CfgRegs) :
    cfgOutOfRange c = true ↔
      255 < c.lineRate.toNat ∨ 255 < c.captureMs.toNat ∨ 255 < c.minIfg.toNat ∨ 273 < c.maxNrb.toNat ∨ 273 < c.nrbPerPkt.toNat := by
  simp only [cfgOutOfRange, maxPrbs, Bool.or_eq_true, decide_eq_true_eq, gt_iff_lt, or_assoc]

theorem planTooWide_iff (v : PlanValues) :
    planTooWide v = true ↔
      2 ^ 64 ≤ v.totalBytes ∨ 2 ^ 64 ≤ v.pktsPerSubframe ∨ 2 ^ 64 ≤ v.pktsPerFrame ∨ 2 ^ 64 ≤ v.totalPackets ∨
        2 ^ 64 ≤ v.totalPackets * v.iqPerPkt := by
  simp only [planTooWide, wordLimit, Bool.or_eq_true, decide_eq_true_eq, ge_iff_le, or_assoc]

theorem poolUnusable_iff (p : Params) (c : CfgRegs) :
    poolUnusable p c = true ↔
      c.payloadType = 1 ∧ (c.poolLen.toNat = 0 ∨ c.poolLen.toNat % 2 = 1 ∨ p.poolCap < c.poolLen.toNat) := by
  simp only [poolUnusable, CfgRegs.fixedMode, Bool.and_eq_true, Bool.or_eq_true, decide_eq_true_eq, gt_iff_lt, or_assoc]

/-- PLAN in IDLE enters PLANNED where every check passes (R171). -/
theorem exec_plan_of_ok {s : State} {v : PlanValues} (hp : s.phase = .idle) (hc : planChecks s.params s.cfg = .ok v) :
    exec .plan s = .next (s.planned v.toRegs) := by
  have hbody : planBody s = .done (s.planned v.toRegs) := by simp only [planBody, hc]
  exact sequencerCommand_eq_next.2 (.inl ⟨(planLegality_runs s).2 hp, Body.outcome_eq_next.2 (.inl hbody)⟩)

/-- Settles O34: the statement's chain is `planChecks` with each check read as arithmetic, and the code decides what PLAN does. -/
theorem planReportsFirstFailedCheck : Obligations.PlanReportsFirstFailedCheck := by
  intro s M N P T B code hp hM hN hP hT hB hcode
  have hmax : normalizePrb s.cfg.maxNrb = M := hM.symm
  have hnrb : normalizePrb s.cfg.nrbPerPkt = N := hN.symm
  have hbytes : (planValues s.cfg).totalBytes = B := (planValues_totalBytes s.cfg).trans hB.symm
  have hsubframe : (planValues s.cfg).pktsPerSubframe = P := by rw [hP, ← hmax, ← hnrb]; rfl
  have hframe : (planValues s.cfg).pktsPerFrame = P * 10 := congrArg (· * 10) hsubframe
  have htotal : (planValues s.cfg).totalPackets = T := by rw [hT, ← hframe]; rfl
  have hiq : (planValues s.cfg).iqPerPkt = 28 * N := by rw [← hnrb]; rfl
  have hchecks : planChecks s.params s.cfg = code.elim (.ok (planValues s.cfg)) .error := by
    simp only [planChecks, cfgOutOfRange_iff, planTooWide_iff, poolUnusable_iff, hmax, hnrb, hbytes, hsubframe, hframe, htotal, hiq,
      gt_iff_lt, hcode, apply_ite fun o : Option ErrCode => o.elim (Except.ok (planValues s.cfg)) Except.error, Option.elim_some,
      Option.elim_none]
  cases code with
  | some c => exact ⟨fun _ h => Option.some.inj h ▸ exec_plan_of_error hp hchecks, nofun⟩
  | none => exact ⟨nofun, fun _ => ⟨_, exec_plan_of_ok hp hchecks, rfl⟩⟩

/-! ### Command words (R90 to R93) -/

theorem decodeOpc_eq_ok {opc : Octet} {i : Instr} (h : decodeOpc opc = .ok i) : opc = opcodeOf i := by
  unfold decodeOpc at h
  split at h
  case h_10 => cases h
  all_goals
    next hopc =>
      obtain rfl := Except.ok.inj h
      exact BitVec.eq_of_toNat_eq hopc

theorem encode_toNat (i : Instr) : (encode i).toNat = (opcodeOf i).toNat := by cases i <;> rfl

/-- A legal word is the encoding of the command it decodes to: RSV is 0, so OPC is the whole word (R92, R95). -/
theorem eq_encode_of_decode {w : Word} {i : Instr} (h : decode w = .ok i) : w = encode i := by
  by_cases hrsv : w.toNat / 256 = 0
  · rw [decode_of_rsv_zero hrsv] at h
    have hopc : w.toNat % 256 = (opcodeOf i).toNat := by rw [← opcOf_toNat, decodeOpc_eq_ok h]
    apply BitVec.eq_of_toNat_eq
    rw [encode_toNat, ← hopc]
    omega
  · rw [decode_of_reserved hrsv] at h
    cases h

theorem decode_encode (i : Instr) : decode (encode i) = .ok i := by cases i <;> rfl

/-! ### Unit commands change no phase (R207, R209) -/

theorem runBuilder_phase {check : Option ErrCode} {build : List Octet → Except ErrCode (List Octet)}
    {record : List Octet → State → State} {s t : State} (h : runBuilder check build record s = .next t)
    (hrecord : ∀ pl u, (record pl u).phase = u.phase) : t.phase = s.phase := by
  rcases runBuilder_cases check build record s with ⟨c, e⟩ | ⟨e, -⟩ | ⟨input, pkt, -, -, -, -, -, e⟩ <;> rw [e] at h
  · obtain rfl := Host.Outcome.next.inj h
    exact s.unitError_phase c
  · cases h
  · obtain rfl := Host.Outcome.next.inj h
    rw [hrecord, State.writeBuilt_phase]

theorem execCrc32_phase {s t : State} (h : execCrc32 s = .next t) : t.phase = s.phase := by
  rcases execCrc32_cases s with ⟨c, e⟩ | ⟨e, -⟩ | ⟨input, -, -, -, e⟩ <;> rw [e] at h
  · obtain rfl := Host.Outcome.next.inj h
    exact s.unitError_phase c
  · cases h
  · obtain rfl := Host.Outcome.next.inj h
    rfl

theorem exec_unit_phase {i : Instr} {s t : State} (hi : i.isUnit = true) (h : exec i s = .next t) : t.phase = s.phase := by
  cases i with
  | clear | plan | step | run | finish => cases hi
  | crc32 => exact execCrc32_phase h
  | oranBuild => rw [exec, execOranBuild] at h; exact runBuilder_phase h fun _ _ => rfl
  | ecpriBuild => rw [exec, execEcpriBuild] at h; exact runBuilder_phase h fun _ _ => rfl
  | ethBuild => rw [exec, execEthBuild] at h; exact runBuilder_phase h fun _ _ => rfl

/-! ### In phase ERROR (R208, R209) -/

/-- In ERROR every command but CLEAR leaves the phase: a sequencer command is ignored, and a unit command changes no phase. -/
theorem exec_phase_of_error {i : Instr} {s t : State} (hp : s.phase = .error) (hi : i ≠ .clear) (h : exec i s = .next t) :
    t.phase = .error := by
  obtain ⟨hplan, hstep, hrun, hfinish⟩ := legality_ignored s
  have hignored {l : Legality} {body : State → Body} (hl : l = .ignored ↔ s.phase = .error)
      (hseq : sequencerCommand l body s = .next t) : t.phase = .error := by
    rw [sequencerCommand_of_error hl hp] at hseq
    rwa [← Host.Outcome.next.inj hseq]
  cases i with
  | clear => exact absurd rfl hi
  | plan => exact hignored hplan h
  | step => exact hignored hstep h
  | run => exact hignored hrun h
  | finish => exact hignored hfinish h
  | crc32 | oranBuild | ecpriBuild | ethBuild => exact (exec_unit_phase rfl h).trans hp

theorem State.regWrite_phase (s : State) (v : Word) (r : Reg) : (s.regWrite v r).phase = s.phase := by
  rcases s.regWrite_cases v r with ⟨c, -, e⟩ | ⟨-, e⟩ | ⟨a, e⟩ | e <;> exact (congrArg State.phase e :)

theorem octetWrite_phase {sp : OctetSpace} {a : Nat} {b : Octet} {s t : State} (h : octetWrite sp a b s = .next t) :
    t.phase = s.phase := by
  obtain ⟨-, rfl⟩ | ⟨-, ⟨-, -, rfl⟩ | ⟨-, -, rfl⟩ | ⟨-, rfl⟩ | ⟨-, rfl⟩⟩ := octetWrite_eq_next h
  all_goals rfl

theorem indexWrite_phase_of_error {x : Fin 64} {v : Word} {s t : State} (hp : s.phase = .error) (h : indexWrite x v s = .next t) :
    t.phase = .error ∨ (x = 1 ∧ v = encode .clear ∧ t = s.cleared) := by
  rcases indexWrite_cases x v s with ⟨hx, e⟩ | ⟨-, r, -, e⟩ | ⟨-, -, e⟩ <;> rw [e] at h
  · rcases issueCommand_cases v s with ⟨i, hdecode, e⟩ | ⟨-, -, e⟩ <;> rw [e] at h
    · by_cases hi : i = .clear
      · subst hi
        exact .inr ⟨hx, eq_encode_of_decode hdecode, (Host.Outcome.next.inj h).symm⟩
      · exact .inl (exec_phase_of_error hp hi h)
    · rw [← Host.Outcome.next.inj h]
      exact .inl s.illegalCommand_phase
  · rw [← Host.Outcome.next.inj h]
    exact .inl ((s.regWrite_phase v r).trans hp)
  · exact .inl (Host.Outcome.next.inj h ▸ hp)

/-- What a host event does to phase ERROR: it stays, or the event is CLEAR or hardware reset. -/
theorem perform_phase_of_error {e : HostEvent} {s t : State} (hp : s.phase = .error) (h : perform e s = .next t) :
    t.phase = .error ∨ (e = .writeReg 0x01 (encode .clear) ∧ t = s.cleared) ∨ (e = .hardwareReset ∧ t = s.hardwareReset) := by
  cases e with
  | writeReg x v =>
    rcases indexWrite_phase_of_error hp h with ht | ⟨rfl, rfl, ht⟩
    · exact .inl ht
    · exact .inr (.inl ⟨rfl, ht⟩)
  | readReg x => exact .inl (Host.Outcome.next.inj h ▸ hp)
  | writeOctet sp a b => exact .inl ((octetWrite_phase h).trans hp)
  | readOctet sp a =>
    obtain ⟨b, -, rfl⟩ := octetRead_eq_next h
    exact .inl hp
  | partialReg x o n => cases h
  | hardwareReset => exact .inr (.inr ⟨rfl, (Host.Outcome.next.inj h).symm⟩)

theorem step_of_clear {s : State} {es : List HostEvent} (h : s.script = .writeReg 0x01 (encode .clear) :: es) :
    step s = .next (State.cleared { s with script := es }) := by
  calc step s = issueCommand (encode .clear) { s with script := es } := step_of_script h
    _ = exec .clear { s with script := es } := issueCommand_of_decode (decode_encode .clear) _

/-- Settles O46: in ERROR every event keeps the phase but CLEAR and hardware reset, which both answer a state in IDLE. -/
theorem onlyClearOrResetLeaveError : Obligations.OnlyClearOrResetLeaveError := by
  refine ⟨fun s t hp h hleft => ?_, fun s es _ hs => ?_, fun s t i hi h => exec_unit_phase hi h⟩
  · rcases step_cases s with ⟨-, e⟩ | ⟨e, es, hs, hstep⟩
    · exact absurd (Host.Outcome.next.inj (e.symm.trans h) ▸ hp) hleft
    · have hpop : s.popEvent.phase = .error := hp
      rcases perform_phase_of_error hpop (hstep.symm.trans h) with ht | ⟨rfl, rfl⟩ | ⟨rfl, rfl⟩
      · exact absurd ht hleft
      · exact ⟨rfl, rfl, .inl ⟨es, hs⟩⟩
      · exact ⟨rfl, rfl, .inr ⟨es, hs⟩⟩
  · rcases hs with hs | hs
    · exact ⟨_, step_of_clear hs, rfl⟩
    · exact ⟨_, step_of_script hs, rfl⟩

end Sys2Proof.Machine
end

section
/-! PROOFS. Reset and hazards: hardware reset (R230), the wrap of the sequence number (R245), and the second run (R234), as a relation between two
states at the same point of the same run that every part of RUN keeps. -/

namespace Sys2Proof.Machine

/-! ### Hardware reset (R230) -/

/-- Settles O16: the step answers `hardwareReset`, whose registers all read 0 and whose spaces are empty. -/
theorem hardwareResetZeroesEverything : Obligations.HardwareResetZeroesEverything := by
  intro s es hs
  have hstep : step s = .next (State.hardwareReset { s with script := es }) := step_of_script hs
  exact ⟨_, hstep, State.indexRead_hardwareReset _, rfl, rfl, rfl, rfl, rfl, rfl, ⟨rfl, rfl, rfl, rfl, rfl, rfl⟩,
    fun a => ⟨Mem.read_nil a, Mem.read_nil a, Mem.read_nil a⟩⟩

/-! ### The sequence number (R185, R245) -/

theorem idsAfter_ecpriSeqId_eq (pl : PlanRegs) (p : Nat) : (idsAfter pl p).ecpriSeqId = BitVec.ofNat 8 (p % 255) := by
  rw [← idsAfter_ecpriSeqId pl p, BitVec.ofNat_toNat, BitVec.setWidth_eq]

/-- Settles O39: packet p carries p mod 255. -/
theorem sequenceNumberWrapsAt255 : Obligations.SequenceNumberWrapsAt255 := by
  refine fun pl => ⟨fun p => ?_, ?_, ?_, ?_⟩
  · rw [idsAfter_ecpriSeqId]; exact Nat.mod_lt p (by decide)
  all_goals rw [idsAfter_ecpriSeqId_eq]; rfl

/-! ### Two states at the same point of the same run -/

/-- The states agree on all that the rest of a run reads, and on the stream emitted so far. OUT past EMITTED, the scratch buffer, ERR, LERR, LOCKED
and the unit commands' state may differ: no later packet depends on them (R40, R48, R63, R66). -/
structure State.SameRun (s t : State) : Prop where
  params_eq : t.params = s.params
  cfg_eq : t.cfg = s.cfg
  plan_eq : t.plan = s.plan
  pool_eq : t.pool = s.pool
  phase_eq : t.phase = s.phase
  packetNo_eq : t.packetNo = s.packetNo
  emitted_eq : t.emitted = s.emitted
  ids_eq : t.ids = s.ids
  out_eq : ∀ x, x < s.emitted.toNat → x < s.params.outCap → Mem.read t.out x = Mem.read s.out x

/-- The host reads the same stream from both (R67). -/
theorem State.SameRun.hostOctet_out_eq {s t : State} (h : s.SameRun t) {x : Nat} (hx : x < s.emitted.toNat) :
    t.hostOctet .out x = s.hostOctet .out x := by
  have hreadable : t.outReadable x = s.outReadable x := by
    simp only [State.outReadable, h.phase_eq, h.emitted_eq, h.params_eq]
  have hoctet : t.readOctet .out x = s.readOctet .out x := by
    have hsize : t.cap .out = s.cap .out := congrArg Params.outCap h.params_eq
    rw [State.readOctet, State.readOctet, hsize]
    by_cases hcap : x < s.cap .out
    · have hread : Mem.read (t.mem .out) x = Mem.read (s.mem .out) x := h.out_eq x hx hcap
      rw [hread]
    · rw [if_neg hcap, if_neg hcap]
  simp only [State.hostOctet, hreadable, hoctet]

/-- The same octets go to the same stream positions (R66). -/
theorem State.SameRun.emit {s t : State} (h : s.SameRun t) (bs : List Octet) : (s.emit bs).SameRun (t.emit bs) where
  params_eq := h.params_eq
  cfg_eq := h.cfg_eq
  plan_eq := h.plan_eq
  pool_eq := h.pool_eq
  phase_eq := h.phase_eq
  packetNo_eq := h.packetNo_eq
  emitted_eq := by simp only [State.emit_emitted, h.emitted_eq]
  ids_eq := h.ids_eq
  out_eq := fun x hx hcap => by
    have hend : x < s.emitted.toNat + bs.length := by
      rw [State.emit_emitted, BitVec.toNat_ofNat] at hx
      exact hx.trans_le (Nat.mod_le _ _)
    have hcap' : x < s.params.outCap := hcap
    rw [State.emit_out_read, State.emit_out_read, h.emitted_eq, h.params_eq]
    by_cases hnew : s.emitted.toNat ≤ x
    · rw [if_pos ⟨hnew, hend, hcap'⟩, if_pos ⟨hnew, hend, hcap'⟩]
    · rw [if_neg (by omega), if_neg (by omega), h.out_eq x (Nat.not_le.1 hnew) hcap']

/-! ### STEP, RUN and FINISH from both (R190 to R192) -/

theorem State.SameRun.iqSlice_eq {s t : State} (h : s.SameRun t) (p : Nat) : t.iqSlice p = s.iqSlice p := by
  rw [State.iqSlice, State.iqSlice, h.plan_eq]
  exact State.poolOctets_congr h.params_eq h.cfg_eq h.plan_eq h.pool_eq _ _

theorem State.SameRun.advanced_ids_eq {s t : State} (h : s.SameRun t) : t.advanced.ids = s.advanced.ids := by
  have hno := congrArg BitVec.toNat h.packetNo_eq
  by_cases hfirst : s.packetNo.toNat = 0
  · rw [s.advanced_ids_first hfirst, t.advanced_ids_first (hno.trans hfirst), h.ids_eq]
  · rw [s.advanced_ids_later hfirst, t.advanced_ids_later (by omega), hno, h.plan_eq, h.ids_eq]

theorem State.SameRun.sliced {s t : State} (h : s.SameRun t) (iq : List Octet) : (s.sliced iq).SameRun (t.sliced iq) := by
  constructor
  case ids_eq => exact h.advanced_ids_eq
  case out_eq => simpa using h.out_eq
  all_goals simp [h.params_eq, h.cfg_eq, h.plan_eq, h.pool_eq, h.phase_eq, h.packetNo_eq, h.emitted_eq]

theorem State.SameRun.buildPacket_eq {s t : State} (h : s.SameRun t) (iq : List Octet) : t.buildPacket iq = s.buildPacket iq := by
  simp only [State.buildPacket, State.oranFields, h.params_eq, h.cfg_eq, h.plan_eq, h.ids_eq]

/-- STEP emits the same frame from both (R190). -/
theorem State.SameRun.stepBody_done {s t u : State} (h : s.SameRun t) (hs : stepBody s = .done u) :
    ∃ v, stepBody t = .done v ∧ u.SameRun v := by
  rcases stepBody_cases s with ⟨f, -, e⟩ | ⟨iq, hslice, ⟨c, -, e⟩ | ⟨fr, hbuild, e⟩⟩ <;> rw [hs] at e
  · cases e
  · cases e
  · obtain rfl := Body.done.inj e
    have hslice' : t.iqSlice t.packetNo.toNat = .ok iq := by rw [h.iqSlice_eq, h.packetNo_eq, hslice]
    have hbuild' : (t.sliced iq).buildPacket iq = .ok fr := by rw [(h.sliced iq).buildPacket_eq, hbuild]
    refine ⟨(t.sliced iq).frameEmitted fr, by simp only [stepBody, hslice', hbuild'], ?_⟩
    have hemit := (h.sliced iq).emit fr
    exact { hemit with phase_eq := rfl, packetNo_eq := congrArg (· + 1) hemit.packetNo_eq }

/-- FINISH appends the same octets from both (R192). -/
theorem State.SameRun.finishBody_done {s t u : State} (h : s.SameRun t) (hs : finishBody s = .done u) :
    ∃ v, finishBody t = .done v ∧ u.SameRun v := by
  rcases finishBody_cases s with ⟨-, e⟩ | ⟨hle, e⟩ <;> rw [hs] at e
  · cases e
  · obtain rfl := Body.done.inj e
    rcases finishBody_cases t with ⟨hover, -⟩ | ⟨-, e'⟩
    · rw [h.plan_eq, h.emitted_eq] at hover; omega
    · rw [h.plan_eq, h.emitted_eq] at e'
      exact ⟨_, e', { h.emit _ with phase_eq := rfl }⟩

theorem State.SameRun.runLoop_done {s t u : State} (h : s.SameRun t) {n : Nat} (hs : runLoop n s = .done u) :
    ∃ v, runLoop n t = .done v ∧ u.SameRun v := by
  induction n generalizing s t with
  | zero => exact h.finishBody_done hs
  | succ n ih =>
    cases hstep : stepBody s with
    | done s' =>
      obtain ⟨t', hstep', h'⟩ := h.stepBody_done hstep
      simp only [runLoop, hstep, hstep'] at hs ⊢
      exact ih h' hs
    | raised c s' => simp only [runLoop, hstep, reduceCtorEq] at hs
    | faulted f => simp only [runLoop, hstep, reduceCtorEq] at hs

/-- RUN to DONE from one is RUN to DONE from the other, with the same stream (R191). -/
theorem State.SameRun.exec_run_done {s t u : State} (h : s.SameRun t) (hp : s.phase = .planned)
    (hs : exec .run s = .next u) (hdone : u.phase = .done) : ∃ v, exec .run t = .next v ∧ u.SameRun v := by
  rw [exec_run_of_legal (.inl hp)] at hs
  rcases Body.outcome_eq_next.1 hs with hbody | ⟨c, r, -, rfl⟩
  · obtain ⟨v, hv, huv⟩ := h.runLoop_done hbody
    have hbody' : runBody t = .done v := by rw [runBody, h.plan_eq, h.packetNo_eq]; exact hv
    exact ⟨v, by rw [exec_run_of_legal (.inl (h.phase_eq.trans hp)), hbody']; rfl, huv⟩
  · cases hdone

/-! ### The second run (R234) -/

/-- A run that succeeds ends in DONE and leaves what PLAN reads, and POOL, as they were (R173, R195). -/
theorem exec_run_of_runSucceeds {s : State} (hs : s.readyToRun = true) (hok : s.runSucceeds = true) :
    ∃ t, exec .run s = .next t ∧ t.phase = .done ∧ t.params = s.params ∧ t.cfg = s.cfg ∧ t.pool = s.pool := by
  have hf := planFacts (s.readyToRun_iff.1 hs).2.1
  simp only [State.runSucceeds, Bool.and_eq_true, Bool.not_eq_true', Bool.and_eq_false_iff, decide_eq_true_eq,
    decide_eq_false_iff_not] at hok
  obtain ⟨⟨⟨hN, hF⟩, hS⟩, hB⟩ := hok
  have hnone (p : Nat) : s.packetError p = none :=
    State.packetError_eq_none hf (by omega) (Nat.not_lt.2 hF) ((Nat.mod_lt _ hf.slots_pos).trans_le hS)
  obtain ⟨r, hrun, hreach⟩ := exec_run_of_no_error hs fun p _ => hnone p
  rcases finishBody_cases r with ⟨hover, -⟩ | ⟨-, hdone⟩
  · rw [hreach.emitted_eq, hreach.plan_eq] at hover; omega
  · exact ⟨_, hrun.trans (congrArg Body.outcome hdone), rfl, hreach.params_eq, hreach.cfg_eq, hreach.pool_eq⟩

/-- PLAN after CLEAR, from the configuration and POOL of a planned state, is that state's run from its start again: the plan is a function of the
parameters and the configuration (R171, R181, R193). -/
theorem exec_plan_cleared {s t : State} (hs : s.readyToRun = true) (hparams : t.params = s.params) (hcfg : t.cfg = s.cfg)
    (hpool : t.pool = s.pool) : ∃ v, exec .plan t.cleared = .next v ∧ s.SameRun v := by
  obtain ⟨hphase, hplan, hno, hemitted, hids, -⟩ := s.readyToRun_iff.1 hs
  obtain ⟨values, hchecks, hregs⟩ := (planOk_iff s).1 hplan
  have hchecks' : planChecks t.cleared.params t.cleared.cfg = .ok values := by
    rw [State.cleared_params, State.cleared_cfg, hparams, hcfg, hchecks]
  refine ⟨_, exec_plan_of_ok t.cleared_phase hchecks', ?_⟩
  exact
    { params_eq := hparams, cfg_eq := hcfg, plan_eq := hregs.symm, pool_eq := hpool, phase_eq := hphase.symm
      packetNo_eq := hno.symm, emitted_eq := hemitted.symm, ids_eq := hids.symm
      out_eq := fun x hx => by rw [hemitted] at hx; exact absurd hx (Nat.not_lt_zero x) }

/-- Settles O45: CLEAR and PLAN lead back to the start of the same run, and RUN emits the same stream from there. -/
theorem secondRunGivesTheSameStream : Obligations.SecondRunGivesTheSameStream := by
  intro s hs hok
  obtain ⟨t, hrun, hdone, hparams, hcfg, hpool⟩ := exec_run_of_runSucceeds hs hok
  obtain ⟨v, hplan, hsame⟩ := exec_plan_cleared hs hparams hcfg hpool
  obtain ⟨w, hrun', hend⟩ := hsame.exec_run_done (s.readyToRun_iff.1 hs).1 hrun hdone
  have hillegal : exec .plan t = .next (t.sequencerError .illegalCommand) :=
    sequencerCommand_of_illegal (legality_ignored t).1 ((planLegality_illegal t).2 (.inr (.inr hdone))) planBody
  exact ⟨t, t.cleared, v, w, hrun, hdone, hillegal, rfl, hcfg, hpool, hplan, hrun', hend.phase_eq.trans hdone, hend.emitted_eq,
    fun x hx => hend.hostOctet_out_eq hx⟩

end Sys2Proof.Machine
end

section
/-! PROOFS. The register file and the octet spaces as the host sees them: command words (R90 to R92), what a register write stores and leaves
(R21, R32, R39, R40), the STATUS word (R23, R200), and the octet accesses (R60 to R72). -/

namespace Sys2Proof.Machine

/-! ### Command words (R90 to R93) -/

/-- Settles O1: each word is closed, so the decoder computes it. -/
theorem decodeReadsOpcodeMap : Obligations.DecodeReadsOpcodeMap := by
  unfold Obligations.DecodeReadsOpcodeMap; decide

/-- Every opcode that R92 allows is in the opcode map of R91. -/
theorem exists_decodeOpc_of_legal : ∀ opc ∈ legalOpcodes, ∃ i, decodeOpc opc = .ok i := by
  simp only [legalOpcodes, List.forall_mem_cons]
  exact ⟨⟨.clear, rfl⟩, ⟨.plan, rfl⟩, ⟨.step, rfl⟩, ⟨.run, rfl⟩, ⟨.finish, rfl⟩, ⟨.crc32, rfl⟩, ⟨.oranBuild, rfl⟩, ⟨.ecpriBuild, rfl⟩,
    ⟨.ethBuild, rfl⟩, nofun⟩

theorem commandWord_wf_encode (i : Instr) : CommandWord.wf (encode i) = true := by
  cases i
  exacts [Laws.EncodedWord.clear.1, Laws.EncodedWord.plan.1, Laws.EncodedWord.step.1, Laws.EncodedWord.run.1, Laws.EncodedWord.finish.1,
    Laws.EncodedWord.crc32.1, Laws.EncodedWord.oranBuild.1, Laws.EncodedWord.ecpriBuild.1, Laws.EncodedWord.ethBuild.1]

theorem exists_encode_of_commandWord_wf {w : Word} (h : CommandWord.wf w = true) : ∃ i, w = encode i := by
  simp only [CommandWord.wf, Bool.and_eq_true, beq_iff_eq, List.contains_iff_mem] at h
  obtain ⟨hrsv, hopc⟩ := h
  obtain ⟨i, hi⟩ := exists_decodeOpc_of_legal _ hopc
  have hdecode : decode w = decodeOpc (opcOf w) := decode_of_rsv_zero ((rsvOf_eq_zero_iff w).1 hrsv)
  exact ⟨i, eq_encode_of_decode (hdecode.trans hi)⟩

theorem instr_wf (i : Instr) : i.wf = true := by cases i <;> rfl

/-- Settles O3: a word's opcode and its zero RSV are the whole word, so decoding inverts encoding, and a legal word decodes. -/
theorem decodeInvertsEncode : Obligations.DecodeInvertsEncode := by
  refine ⟨fun w i => ⟨eq_encode_of_decode, ?_⟩, fun w => ⟨fun hw => ?_, ?_⟩⟩
  · rintro rfl; exact decode_encode i
  · obtain ⟨i, hi⟩ := exists_encode_of_commandWord_wf hw
    exact ⟨i, instr_wf i, hi⟩
  · rintro ⟨i, -, rfl⟩; exact commandWord_wf_encode i

/-! ### The registers by kind (R22) -/

/-- The registers at the indices 0x10 to 0x1A (R22). -/
def argRegisters : List Reg :=
  [.argSrc, .argLen, .argDst, .argFrame, .argSubframe, .argSlot, .argSymbol, .argStartPrbu, .argNumPrbu, .argSeq, .argEther]

theorem regIndex_of_regAt {i : Fin 64} {r : Reg} (h : regAt i = some r) : regIndex r = i := by
  have hall : ∀ i : Fin 64, ∀ r ∈ regAt i, regIndex r = i := by decide
  exact hall i r h

theorem mem_cfgRegisters_iff (r : Reg) : r ∈ cfgRegisters ↔ 2 ≤ (regIndex r).val ∧ (regIndex r).val ≤ 0x0D := by
  cases r <;> decide

theorem mem_argRegisters_iff (r : Reg) : r ∈ argRegisters ↔ 0x10 ≤ (regIndex r).val ∧ (regIndex r).val ≤ 0x1A := by
  cases r <;> decide

theorem exists_argRegister_of_index : ∀ i : Fin 64, 0x10 ≤ i.val → i.val ≤ 0x1A → ∃ r ∈ argRegisters, i = regIndex r := by decide

theorem argRegisters_ne_cmd {r : Reg} (hr : r ∈ argRegisters) : r ≠ .cmd := by rintro rfl; exact absurd hr (by decide)

/-! ### What a register write stores, and what it leaves (R21, R32, R39, R40) -/

/-- A register that the host cannot write keeps its value, and the state with it (R21, R28). -/
theorem State.regWrite_readOnly (s : State) (v : Word) {r : Reg} (hc : r ∉ cfgRegisters) (ha : r ∉ argRegisters) :
    s.regWrite v r = s := by
  cases r
  case cfgLineRate | cfgCaptureMs | cfgMinIfg | cfgDestMac | cfgSrcMac | cfgMaxPkt | cfgScs | cfgMaxNrb | cfgNrbPerPkt | cfgPayloadType |
      cfgPoolLen | cfgRngSeed => exact absurd (by decide) hc
  case argSrc | argLen | argDst | argFrame | argSubframe | argSlot | argSymbol | argStartPrbu | argNumPrbu | argSeq | argEther =>
    exact absurd (by decide) ha
  all_goals rfl

/-- An ARG_ write changes the ARG_ registers alone, in every phase, and of them only the one named (R40). -/
theorem State.regWrite_arg (s : State) (v : Word) {r : Reg} (hr : r ∈ argRegisters) :
    ∃ a, s.regWrite v r = { s with arg := a } ∧ State.regRead { s with arg := a } r = v ∧
      ∀ r', r' ≠ r → State.regRead { s with arg := a } r' = s.regRead r' := by
  cases r
  case argSrc | argLen | argDst | argFrame | argSubframe | argSlot | argSymbol | argStartPrbu | argNumPrbu | argSeq | argEther =>
    refine ⟨_, rfl, rfl, fun r' hne => ?_⟩
    cases r' <;> first | rfl | exact absurd rfl hne
  all_goals exact absurd hr (by decide)

/-- A CFG_ write in IDLE changes the one register named (R39). -/
theorem State.regRead_regWrite_cfg_of_ne {s : State} (hp : s.phase = .idle) (v : Word) {r r' : Reg} (hr : r ∈ cfgRegisters)
    (hne : r' ≠ r) : (s.regWrite v r).regRead r' = s.regRead r' := by
  cases r
  case cfgLineRate | cfgCaptureMs | cfgMinIfg | cfgDestMac | cfgSrcMac | cfgMaxPkt | cfgScs | cfgMaxNrb | cfgNrbPerPkt | cfgPayloadType |
      cfgPoolLen | cfgRngSeed =>
    rw [State.regWrite, State.cfgWrite_idle _ s hp]
    cases r' <;> first | rfl | exact absurd rfl hne
  all_goals exact absurd hr (by decide)

theorem State.indexRead_congr {s t : State} {i : Fin 64} (h : ∀ r, regIndex r = i → t.regRead r = s.regRead r) :
    t.indexRead i = s.indexRead i := by
  unfold State.indexRead
  cases hr : regAt i with
  | none => rfl
  | some r => exact h r (regIndex_of_regAt hr)

/-- What index j reads after a write to index i in IDLE (R21, R32, R39, R40). -/
theorem State.indexRead_regWrite {s : State} (hp : s.phase = .idle) (v : Word) (r : Reg) (j : Fin 64) :
    (s.regWrite v r).indexRead j =
      if j = regIndex r ∧ ((2 ≤ (regIndex r).val ∧ (regIndex r).val ≤ 0x0D) ∨ (0x10 ≤ (regIndex r).val ∧ (regIndex r).val ≤ 0x1A)) then
        (if (regIndex r).val = 0x05 ∨ (regIndex r).val = 0x06 then v &&& 0x0000FFFFFFFFFFFF else v)
      else s.indexRead j := by
  have hne {r'} (hj : j ≠ regIndex r) (h : regIndex r' = j) : r' ≠ r := by rintro rfl; exact hj h.symm
  by_cases hc : r ∈ cfgRegisters
  · have hrange := (mem_cfgRegisters_iff r).1 hc
    by_cases hj : j = regIndex r
    · obtain ⟨c, hw, hread⟩ := s.regWrite_cfg v hc
      rw [if_pos ⟨hj, .inl hrange⟩, hj, hw, State.cfgWrite_idle c s hp, indexRead_regIndex, hread]
    · rw [if_neg fun h => hj h.1]
      exact State.indexRead_congr fun r' h => State.regRead_regWrite_cfg_of_ne hp v hc (hne hj h)
  by_cases ha : r ∈ argRegisters
  · have hrange := (mem_argRegisters_iff r).1 ha
    obtain ⟨a, hw, hread, hframe⟩ := s.regWrite_arg v ha
    rw [hw]
    by_cases hj : j = regIndex r
    · rw [if_pos ⟨hj, .inr hrange⟩, hj, indexRead_regIndex, hread, if_neg (by omega)]
    · rw [if_neg fun h => hj h.1]
      exact State.indexRead_congr fun r' h => hframe r' (hne hj h)
  · rw [State.regWrite_readOnly s v hc ha, if_neg]
    rw [← mem_cfgRegisters_iff, ← mem_argRegisters_iff]
    exact fun h => h.2.elim hc ha

/-- Settles O7: an index that is listed reads as `indexRead_regWrite` says, and an unlisted one is neither written nor read. -/
theorem registerFileReadsBackWrites : Obligations.RegisterFileReadsBackWrites := by
  refine ⟨fun s i v es hi hp hs => ?_, fun s v es i c hp hs hmem => ?_⟩
  · have hstep : step s = indexWrite i v { s with script := es } := step_of_script hs
    rcases indexWrite_cases i v { s with script := es } with ⟨h1, -⟩ | ⟨-, r, hr, e⟩ | ⟨-, hnone, e⟩
    · exact absurd h1 hi
    · obtain rfl := regIndex_of_regAt hr
      exact ⟨_, hstep.trans e, State.indexRead_regWrite (s := { s with script := es }) hp v r⟩
    · have hunlisted : ∀ i : Fin 64, regAt i = none → ¬((2 ≤ i.val ∧ i.val ≤ 0x0D) ∨ (0x10 ≤ i.val ∧ i.val ≤ 0x1A)) := by decide
      exact ⟨_, hstep.trans e, fun j => by rw [if_neg fun h => hunlisted i hnone h.2]; rfl⟩
  · have hwrite : indexWrite i v { s with script := es } = .next (State.cfgWrite c { s with script := es }) := by
      simp only [List.mem_cons, Prod.mk.injEq, List.not_mem_nil, or_false, BitVec.ofNat_toNat] at hmem
      rcases hmem with ⟨rfl, rfl⟩ | ⟨rfl, rfl⟩ | ⟨rfl, rfl⟩ | ⟨rfl, rfl⟩ | ⟨rfl, rfl⟩ | ⟨rfl, rfl⟩ | ⟨rfl, rfl⟩ | ⟨rfl, rfl⟩ |
        ⟨rfl, rfl⟩ | ⟨rfl, rfl⟩ | ⟨rfl, rfl⟩ | ⟨rfl, rfl⟩
      all_goals rfl
    calc step s = indexWrite i v { s with script := es } := step_of_script hs
      _ = .next (State.cfgWrite c { s with script := es }) := hwrite
      _ = .next { s with script := es, cfg := c } := congrArg Host.Outcome.next (State.cfgWrite_idle c _ hp)

/-- Settles O8: an ARG_ write does not ask for the phase. -/
theorem argWritesInEveryPhase : Obligations.ArgWritesInEveryPhase := by
  refine ⟨fun s i v es hlo hhi hs => ?_, fun s v es i a hs hmem => ?_⟩
  · obtain ⟨r, hr, rfl⟩ := exists_argRegister_of_index i hlo hhi
    obtain ⟨a, hw, hread, hframe⟩ := State.regWrite_arg { s with script := es } v hr
    refine ⟨{ s with script := es, arg := a }, ?_, rfl, (indexRead_regIndex _ r).trans hread, fun j hj => ?_⟩
    · calc step s = indexWrite (regIndex r) v { s with script := es } := step_of_script hs
        _ = .next { s with script := es, arg := a } := by rw [indexWrite_regIndex _ v (argRegisters_ne_cmd hr), hw]
    · exact State.indexRead_congr fun r' h => hframe r' (by rintro rfl; exact hj h.symm)
  · rw [step_of_script hs]
    simp only [List.mem_cons, Prod.mk.injEq, List.not_mem_nil, or_false] at hmem
    rcases hmem with ⟨rfl, rfl⟩ | ⟨rfl, rfl⟩ | ⟨rfl, rfl⟩ | ⟨rfl, rfl⟩ | ⟨rfl, rfl⟩ | ⟨rfl, rfl⟩ | ⟨rfl, rfl⟩ | ⟨rfl, rfl⟩ |
      ⟨rfl, rfl⟩ | ⟨rfl, rfl⟩ | ⟨rfl, rfl⟩
    all_goals rfl

/-! ### Octet writes that nothing stores (R60, R72) -/

theorem octetWrite_out (a : Nat) (b : Octet) (s : State) : octetWrite .out a b s = .next s := by
  unfold octetWrite; exact ite_self _

theorem octetWrite_outside {sp : OctetSpace} {a : Nat} {s : State} (h : s.cap sp ≤ a) (b : Octet) : octetWrite sp a b s = .next s :=
  if_neg (Nat.not_lt.2 h)

/-- Settles O6: the step of an empty script is the state itself. -/
theorem noEventHoldsState : Obligations.NoEventHoldsState := by
  intro s hs
  rcases step_cases s with ⟨-, e⟩ | ⟨e, es, hcons, -⟩
  · exact e
  · rw [hs] at hcons; cases hcons

/-- Settles O10: an index outside the two writable ranges is unlisted or read-only, and an octet write to OUT or outside the space is dropped. -/
theorem otherWritesDoNothing : Obligations.OtherWritesDoNothing := by
  refine ⟨fun s i v es hi hs => ?_, fun s sp a b es hsp hs => ?_⟩
  · have hstep : step s = indexWrite i v { s with script := es } := step_of_script hs
    rcases indexWrite_cases i v { s with script := es } with ⟨rfl, -⟩ | ⟨-, r, hr, e⟩ | ⟨-, -, e⟩
    · exact absurd hi (by decide)
    · obtain rfl := regIndex_of_regAt hr
      have hc : r ∉ cfgRegisters := by rw [mem_cfgRegisters_iff]; omega
      have ha : r ∉ argRegisters := by rw [mem_argRegisters_iff]; omega
      rw [hstep, e, State.regWrite_readOnly _ v hc ha]
    · exact hstep.trans e
  · have hstep : step s = octetWrite sp a b { s with script := es } := step_of_script hs
    rw [hstep]
    rcases hsp with rfl | hcap
    · exact octetWrite_out a b _
    · exact octetWrite_outside (s := { s with script := es }) hcap b

/-! ### Octet reads (R60, R64, R67) -/

theorem State.readOctet_of_read {s : State} {sp : OctetSpace} {a : Nat} {b : Octet} (ha : a < s.cap sp)
    (hb : Mem.read (s.mem sp) a = some b) : s.readOctet sp a = .ok b := by
  simp only [State.readOctet, if_pos ha, hb]

theorem State.readOctet_of_unwritten {s : State} {sp : OctetSpace} {a : Nat} (h : Mem.read (s.mem sp) a = none ∨ s.cap sp ≤ a) :
    s.readOctet sp a = .error .unwrittenOctet := by
  rcases s.readOctet_cases sp a with ⟨b, -, ha, hb⟩ | ⟨e, -⟩
  · rcases h with hnone | hcap
    · rw [hb] at hnone; cases hnone
    · omega
  · exact e

theorem State.mem_read_of_readOctet {s : State} {sp : OctetSpace} {a : Nat} {b : Octet} (h : s.readOctet sp a = .ok b) :
    a < s.cap sp ∧ Mem.read (s.mem sp) a = some b := by
  rcases s.readOctet_cases sp a with ⟨b', e, ha, hb⟩ | ⟨e, -⟩ <;> rw [h] at e
  · obtain rfl := Except.ok.inj e; exact ⟨ha, hb⟩
  · cases e

/-- A read of a space depends on its size and on what it holds at the address. -/
theorem State.readOctet_congr {s t : State} {sp : OctetSpace} {a : Nat} (hcap : t.cap sp = s.cap sp)
    (hread : Mem.read (t.mem sp) a = Mem.read (s.mem sp) a) : t.readOctet sp a = s.readOctet sp a := by
  simp only [State.readOctet, hcap, hread]

theorem State.outReadable_iff (s : State) (a : Nat) :
    s.outReadable a = true ↔ (s.phase = .running ∨ s.phase = .done) ∧ a < s.emitted.toNat ∧ a < s.params.outCap := by
  simp only [State.outReadable, Bool.and_eq_true, Bool.or_eq_true, decide_eq_true_eq, Nat.lt_min]

/-- Outside OUT the host reads an octet as the FSA does. -/
theorem State.hostOctet_of_ne_out (s : State) {sp : OctetSpace} (h : sp ≠ .out) (a : Nat) : s.hostOctet sp a = s.readOctet sp a := by
  cases sp with
  | pool | scr => rfl
  | out => exact absurd rfl h

theorem State.hostOctet_out_of_readable {s : State} {a : Nat} (h : s.outReadable a = true) : s.hostOctet .out a = s.readOctet .out a :=
  if_pos h

theorem State.hostOctet_out_of_not_readable {s : State} {a : Nat} (h : s.outReadable a ≠ true) :
    s.hostOctet .out a = .error .unspecifiedOutOctet := if_neg h

/-- An octet the host receives is the one the space holds (R64, R67). -/
theorem State.mem_read_of_hostOctet {s : State} {sp : OctetSpace} {a : Nat} {b : Octet} (h : s.hostOctet sp a = .ok b) :
    Mem.read (s.mem sp) a = some b := by
  by_cases hsp : sp = .out
  · subst hsp
    by_cases hr : s.outReadable a = true
    · rw [State.hostOctet_out_of_readable hr] at h; exact (State.mem_read_of_readOctet h).2
    · rw [State.hostOctet_out_of_not_readable hr] at h; cases h
  · rw [s.hostOctet_of_ne_out hsp] at h; exact (State.mem_read_of_readOctet h).2

theorem octetRead_of_ok {s : State} {sp : OctetSpace} {a : Nat} {b : Octet} (h : s.hostOctet sp a = .ok b) :
    octetRead sp a s = .next (s.answer (.octet b)) := by
  simp only [octetRead, h]

theorem octetRead_of_error {s : State} {sp : OctetSpace} {a : Nat} {f : Fault} (h : s.hostOctet sp a = .error f) :
    octetRead sp a s = .fault f := by
  simp only [octetRead, h]

/-- Settles O11: a read answers the host and nothing more, and what it answers is the register of the index or the octet of the space. -/
theorem readsHaveNoSideEffect : Obligations.ReadsHaveNoSideEffect := by
  have hunlisted : ∀ i : Fin 64, (i.val = 0x0E ∨ i.val = 0x0F ∨ (0x1B ≤ i.val ∧ i.val ≤ 0x1F) ∨ (0x25 ≤ i.val ∧ i.val ≤ 0x2F) ∨
      0x3D ≤ i.val) → regAt i = none := by decide
  refine ⟨fun s i es hs => ⟨step_of_script hs, fun hi => ?_⟩, fun s t sp a es hs ht => ?_, fun s => ?_⟩
  · simp only [State.indexRead, hunlisted i hi]
  · rw [step_of_script hs] at ht
    obtain ⟨b, hb, rfl⟩ := octetRead_eq_next ht
    exact ⟨b, rfl, State.mem_read_of_hostOctet hb⟩
  · have hzext {n : Nat} (hn : n ≤ 64) (v : BitVec n) : (v.zeroExtend 64).toNat = v.toNat := by
      rw [BitVec.toNat_setWidth, Nat.mod_eq_of_lt (v.isLt.trans_le (Nat.pow_le_pow_right (by decide) hn))]
    exact ⟨⟨rfl, rfl, rfl, rfl, hzext (by decide) _, hzext (by decide) _, rfl, rfl, rfl, rfl, rfl, rfl, rfl⟩,
      ⟨rfl, rfl, rfl, rfl, rfl, rfl, rfl, rfl, rfl, rfl, rfl⟩,
      ⟨hzext (by decide) _, rfl, rfl, BitVec.toNat_setWidth 64 s.emitted, rfl⟩,
      ⟨rfl, rfl, rfl, rfl, rfl, rfl, rfl, rfl, rfl, rfl, rfl, rfl, rfl⟩⟩

/-- Settles O13: one octet is stored, and SCR is read as the space holds it. -/
theorem scratchOctetsReadBack : Obligations.ScratchOctetsReadBack := by
  refine ⟨fun s a b es ha hs => ?_, fun s sp a b es hsp ha hb hs => ?_⟩
  · have hstep : step s = octetWrite .scr a b { s with script := es } := step_of_script hs
    refine ⟨_, hstep.trans (if_pos ha), rfl, fun x => ?_⟩
    by_cases hx : x = a
    · subst hx
      rw [if_pos rfl]
      exact State.readOctet_of_read ha (by rw [State.mem, Mem.read_writeRange_singleton, if_pos rfl])
    · rw [if_neg hx]
      exact State.readOctet_congr (sp := .scr) rfl ((Mem.read_writeRange_singleton s.scr a b x).trans (if_neg hx))
  · have hstep : step s = octetRead sp a { s with script := es } := step_of_script hs
    have hread : State.hostOctet { s with script := es } sp a = .ok b :=
      (State.hostOctet_of_ne_out _ hsp a).trans (State.readOctet_of_read ha hb)
    exact hstep.trans (octetRead_of_ok hread)

/-- Settles O14: the window of R67 decides between the octet and the fault. -/
theorem outIsReadableInItsWindow : Obligations.OutIsReadableInItsWindow := by
  intro s a es hs
  have hstep : step s = octetRead .out a { s with script := es } := step_of_script hs
  have hwindow := State.outReadable_iff { s with script := es } a
  refine ⟨fun hin b hb => ?_, fun hout => ?_⟩
  · have hread : State.hostOctet { s with script := es } .out a = .ok b :=
      (State.hostOctet_out_of_readable (hwindow.2 hin)).trans (State.readOctet_of_read hin.2.2 hb)
    exact hstep.trans (octetRead_of_ok hread)
  · exact hstep.trans (octetRead_of_error (State.hostOctet_out_of_not_readable (mt hwindow.1 hout)))

/-- Settles O15: a partial access is refused, and an octet that nothing wrote has no value to hand over. -/
theorem unservedAccessesStop : Obligations.UnservedAccessesStop := by
  refine ⟨fun s i o n es hs => step_of_script hs, fun s sp a es hsp hnone hs => ?_⟩
  have hstep : step s = octetRead sp a { s with script := es } := step_of_script hs
  have hread : State.hostOctet { s with script := es } sp a = .error .unwrittenOctet :=
    (State.hostOctet_of_ne_out _ hsp a).trans (State.readOctet_of_unwritten hnone)
  exact hstep.trans (octetRead_of_error hread)

/-! ### The STATUS word (R23 to R27, R200) -/

theorem Phase.code_le (p : Phase) : p.code.toNat ≤ 4 := by cases p <;> decide

theorem Phase.code_toNat_inj {p q : Phase} : p.code.toNat = q.code.toNat ↔ p = q := by
  cases p <;> cases q <;> decide

theorem ErrCode.code_le (c : ErrCode) : c.code.toNat ≤ 11 := by cases c <;> decide

theorem ErrCode.code_toNat_inj {c d : ErrCode} : c.code.toNat = d.code.toNat ↔ c = d := by
  cases c <;> cases d <;> decide

theorem toNat_append_eq_add {n m : Nat} (x : BitVec n) (y : BitVec m) : (x ++ y).toNat = x.toNat * 2 ^ m + y.toNat := by
  rw [BitVec.toNat_append, ← Nat.shiftLeft_add_eq_or_of_lt y.isLt, Nat.shiftLeft_eq]

theorem flagBit_toNat (b : Bool) : (flagBit b).toNat = if b then 1 else 0 := by cases b <;> rfl

theorem State.indexRead_status_toNat (s : State) :
    (s.indexRead 0x00).toNat =
      s.phase.code.toNat + s.err.code.toNat * 2 ^ 8 + s.lerr.code.toNat * 2 ^ 16 + (if s.locked then 1 else 0) * 2 ^ 24 := by
  have hword : s.indexRead 0x00 = (0#39) ++ flagBit s.locked ++ s.lerr.code ++ s.err.code ++ (0#5) ++ s.phase.code := rfl
  rw [hword]
  simp only [toNat_append_eq_add, flagBit_toNat, BitVec.toNat_ofNat]
  omega

/-- Settles O12: the word is a sum of its fields at their places, each field is below its bound, and both encodings are injective. -/
theorem statusWordHasFourFields : Obligations.StatusWordHasFourFields := by
  have hfields (s : State) : (s.indexRead 0x00).toNat % 8 = s.phase.code.toNat ∧
      (s.indexRead 0x00).toNat / 2 ^ 8 % 2 ^ 8 = s.err.code.toNat ∧ (s.indexRead 0x00).toNat / 2 ^ 16 % 2 ^ 8 = s.lerr.code.toNat ∧
      (s.indexRead 0x00).toNat / 8 % 32 = 0 ∧ (s.indexRead 0x00).toNat < 2 ^ 25 := by
    have hword := s.indexRead_status_toNat
    have hphase := s.phase.code_le
    have herr := s.err.code_le
    have hlerr := s.lerr.code_le
    split at hword <;> omega
  refine ⟨State.indexRead_status_toNat, fun s => ?_, fun s => ?_, fun s c n hmem => ?_⟩
  all_goals obtain ⟨hphase, herr, hlerr, hzero, hlt⟩ := hfields s
  · rw [hphase, herr, hlerr]
    exact ⟨s.phase.code_le, s.err.code_le, s.lerr.code_le, hzero, hlt⟩
  · rw [hphase]
    exact ⟨Phase.code_toNat_inj (q := .idle), Phase.code_toNat_inj (q := .planned), Phase.code_toNat_inj (q := .running),
      Phase.code_toNat_inj (q := .done), Phase.code_toNat_inj (q := .error)⟩
  · have hn : n = c.code.toNat := (by decide : ∀ p : ErrCode × Nat, p ∈ _ → p.2 = p.1.code.toNat) (c, n) hmem
    rw [herr, hlerr, hn]
    exact ⟨ErrCode.code_toNat_inj.symm, ErrCode.code_toNat_inj.symm⟩

end Sys2Proof.Machine
end

section
/-! PROOFS. The unit commands (R19): the CRC engine and the CRC32 command (R120 to R124), and what each builder command answers, check by check
(R133, R142, R155), with the octets of its packet as arithmetic (R96 to R100). -/

namespace Sys2Proof.Machine

/-! ### Bit reversal -/

theorem reverse_xor {w : Nat} (x y : BitVec w) : (x ^^^ y).reverse = x.reverse ^^^ y.reverse := by
  ext i hi
  simp only [BitVec.getElem_reverse, BitVec.getMsbD_xor, BitVec.getElem_xor]

theorem reverse_ushiftRight {w : Nat} (x : BitVec w) (k : Nat) : (x >>> k).reverse = x.reverse <<< k := by
  ext i hi
  simp [BitVec.getElem_reverse, BitVec.getMsbD_ushiftRight, BitVec.getElem_shiftLeft, hi]

theorem reverse_zeroExtend_octet (b : Octet) : (b.zeroExtend 32).reverse = b.reverse.zeroExtend 32 <<< 24 := by
  ext i hi
  simp [BitVec.getElem_reverse, BitVec.getElem_shiftLeft, BitVec.getMsbD_setWidth, BitVec.getElem_setWidth, BitVec.getLsbD_reverse,
    ← decide_not]

/-! ### The CRC engine (R120, R124) -/

/-- Settles O18: nine octets through the engine. -/
theorem crcCheckValue : Obligations.CrcCheckValue := by
  unfold Obligations.CrcCheckValue; decide +kernel

/-- A shift of the reflected engine is a shift the other way of the reversed register, with the reversed polynomial. -/
theorem reverse_crcShift (r : BitVec 32) : (crcShift r).reverse = crcMsbShift r.reverse := by
  have hpoly : crcPoly.reverse = 0x04C11DB7 := by decide +kernel
  have htop : r.reverse.getLsbD 31 = r.getLsbD 0 := BitVec.getLsbD_reverse
  unfold crcShift crcMsbShift
  rw [htop]
  split
  · rw [reverse_xor, reverse_ushiftRight, hpoly]
  · exact reverse_ushiftRight r 1

theorem reverse_crcShifts (n : Nat) (r : BitVec 32) : (crcShifts n r).reverse = crcMsbShifts n r.reverse := by
  induction n generalizing r with
  | zero => rfl
  | succ n ih => rw [crcShifts, crcMsbShifts, ih, reverse_crcShift]

theorem reverse_crcOctet (r : BitVec 32) (b : Octet) : (crcOctet r b).reverse = crcMsbOctet r.reverse b := by
  rw [crcOctet, crcMsbOctet, reverse_crcShifts, reverse_xor, reverse_zeroExtend_octet]

theorem reverse_foldl_crcOctet (s : List Octet) (r : BitVec 32) : (s.foldl crcOctet r).reverse = s.foldl crcMsbOctet r.reverse := by
  induction s generalizing r with
  | nil => rfl
  | cons b s ih => rw [List.foldl_cons, List.foldl_cons, ih, reverse_crcOctet]

/-- Settles O19: the two registers are each other's reversal after every octet. -/
theorem crcIsReversedMsbFirstCrc : Obligations.CrcIsReversedMsbFirstCrc := by
  intro s
  have hinit : crcInit.reverse = 0xFFFFFFFF := by decide +kernel
  have hreg : (crcMsbRegister s).reverse = s.foldl crcOctet crcInit := by
    rw [crcMsbRegister, ← hinit, ← reverse_foldl_crcOctet, BitVec.reverse_reverse_eq]
  rw [hreg]; rfl

/-! ### The source range of a unit command (R64, R94) -/

theorem State.scrHolds_iff (s : State) (a n : Nat) : s.scrHolds a n = true ↔ a + n ≤ s.params.scrCap := decide_eq_true_iff

theorem State.scrHolds_eq_false {s : State} {a n : Nat} (h : s.params.scrCap < a + n) : s.scrHolds a n = false :=
  decide_eq_false (Nat.not_le.2 h)

theorem Mem.readRange_eq_none {m : Mem} {a n k : Nat} (hk : k < n) (h : Mem.read m (a + k) = none) : Mem.readRange m a n = none := by
  cases hr : Mem.readRange m a n with
  | none => rfl
  | some bs =>
    obtain ⟨hlen, hread⟩ := (Mem.readRange_eq_some m a n bs).1 hr
    have hsome := hread k hk
    rw [h, List.getElem?_eq_getElem (hlen ▸ hk)] at hsome
    cases hsome

theorem Mem.exists_readRange {m : Mem} {a n : Nat} (h : ∀ k, k < n → (Mem.read m (a + k)).isSome) :
    ∃ bs, Mem.readRange m a n = some bs ∧ bs.length = n := by
  refine ⟨(List.range n).map fun k => (Mem.read m (a + k)).getD 0, (Mem.readRange_eq_some m a n _).2 ⟨by simp, fun k hk => ?_⟩, by simp⟩
  obtain ⟨b, hb⟩ := Option.isSome_iff_exists.1 (h k hk)
  simp [hk, hb]

/-! ### CRC32, check by check (R123) -/

theorem execCrc32_of_empty {s : State} (h : s.lenOperand = 0) : execCrc32 s = .next (s.unitError .crcInputEmpty) := if_pos h

theorem execCrc32_of_outside {s : State} (h0 : s.lenOperand ≠ 0) (h : s.params.scrCap < s.srcOperand + s.lenOperand) :
    execCrc32 s = .next (s.unitError .resourceExceeded) := by
  simp [execCrc32, h0, State.scrHolds_eq_false h]

theorem execCrc32_of_unwritten {s : State} (h0 : s.lenOperand ≠ 0) (h : s.srcOperand + s.lenOperand ≤ s.params.scrCap)
    (hread : Mem.readRange s.scr s.srcOperand s.lenOperand = none) : execCrc32 s = .fault .unwrittenOctet := by
  simp [execCrc32, h0, (s.scrHolds_iff _ _).2 h, hread]

theorem execCrc32_of_written {s : State} {input : List Octet} (h0 : s.lenOperand ≠ 0) (h : s.srcOperand + s.lenOperand ≤ s.params.scrCap)
    (hread : Mem.readRange s.scr s.srcOperand s.lenOperand = some input) :
    execCrc32 s = .next { s with resCrc := crc32 input, lerr := .noError } := by
  simp [execCrc32, h0, (s.scrHolds_iff _ _).2 h, hread]

/-- Settles O20: both checks pass, and the range read is the sequence. -/
theorem crcCommandResult : Obligations.CrcCommandResult := by
  intro s bs hlen hpos hsrc hwritten
  exact execCrc32_of_written (Nat.one_le_iff_ne_zero.1 hpos) hsrc ((Mem.readRange_eq_some _ _ _ bs).2 ⟨hlen, hwritten⟩)

/-- Settles O21: the empty input is checked before the range. -/
theorem crcCommandErrors : Obligations.CrcCommandErrors :=
  ⟨fun _ h0 => execCrc32_of_empty h0, fun _ hpos h => execCrc32_of_outside (Nat.one_le_iff_ne_zero.1 hpos) h⟩

/-! ### A builder command, check by check (R133, R142, R155) -/

theorem exec_oranBuild (s : State) : exec .oranBuild s = runBuilder none (oranPacket s.oranOperands) (fun _ t => t) s := rfl

theorem exec_ecpriBuild (s : State) :
    exec .ecpriBuild s = runBuilder (checkSeqOperand s) (ecpriPacket s.arg.seq.toNat) (fun _ t => t) s := rfl

theorem exec_ethBuild (s : State) :
    exec .ethBuild s = runBuilder (checkEthOperands s)
      (fun pl => ethFrame s.cfg.destMac s.cfg.srcMac (be16 (s.arg.ether.setWidth 16)) pl s.cfg.minIfg.toNat s.cfg.maxPkt.toNat)
      (fun pl t => { t with resCrc := crc32 (s.ethBuildBody pl) }) s := rfl

section
variable {check : Option ErrCode} {build : List Octet → Except ErrCode (List Octet)} {record : List Octet → State → State} {s : State}
  {input pkt : List Octet} {c : ErrCode}

theorem runBuilder_of_source_outside (h : s.params.scrCap < s.srcOperand + s.lenOperand) :
    runBuilder check build record s = .next (s.unitError .resourceExceeded) := by
  simp [runBuilder, State.scrHolds_eq_false h]

theorem runBuilder_of_check (h : s.srcOperand + s.lenOperand ≤ s.params.scrCap) (hc : check = some c) :
    runBuilder check build record s = .next (s.unitError c) := by
  simp [runBuilder, (s.scrHolds_iff _ _).2 h, hc]

theorem runBuilder_of_unwritten (h : s.srcOperand + s.lenOperand ≤ s.params.scrCap) (hc : check = none)
    (hread : Mem.readRange s.scr s.srcOperand s.lenOperand = none) :
    runBuilder check build record s = .fault .unwrittenOctet := by
  simp [runBuilder, (s.scrHolds_iff _ _).2 h, hc, hread]

theorem runBuilder_of_build_error (h : s.srcOperand + s.lenOperand ≤ s.params.scrCap) (hc : check = none)
    (hread : Mem.readRange s.scr s.srcOperand s.lenOperand = some input) (hb : build input = .error c) :
    runBuilder check build record s = .next (s.unitError c) := by
  simp [runBuilder, (s.scrHolds_iff _ _).2 h, hc, hread, hb]

theorem runBuilder_of_dest_outside (h : s.srcOperand + s.lenOperand ≤ s.params.scrCap) (hc : check = none)
    (hread : Mem.readRange s.scr s.srcOperand s.lenOperand = some input) (hb : build input = .ok pkt)
    (hd : s.params.scrCap < s.dstOperand + pkt.length) :
    runBuilder check build record s = .next (s.unitError .resourceExceeded) := by
  simp [runBuilder, (s.scrHolds_iff _ _).2 h, hc, hread, hb, State.scrHolds_eq_false hd]

theorem runBuilder_of_ok (h : s.srcOperand + s.lenOperand ≤ s.params.scrCap) (hc : check = none)
    (hread : Mem.readRange s.scr s.srcOperand s.lenOperand = some input) (hb : build input = .ok pkt)
    (hd : s.dstOperand + pkt.length ≤ s.params.scrCap) :
    runBuilder check build record s = .next (record input (s.writeBuilt s.dstOperand pkt)) := by
  simp [runBuilder, (s.scrHolds_iff _ _).2 h, hc, hread, hb, (s.scrHolds_iff _ _).2 hd]

/-- The next states of a builder command: a unit error, which is the range's, the operand check's or the builder's, or the packet written. -/
theorem runBuilder_eq_next {t : State} (h : runBuilder check build record s = .next t) :
    (∃ c, (c = .resourceExceeded ∨ check = some c ∨ ∃ input, build input = .error c) ∧ t = s.unitError c) ∨
      ∃ input pkt, build input = .ok pkt ∧ s.dstOperand + pkt.length ≤ s.params.scrCap ∧
        t = record input (s.writeBuilt s.dstOperand pkt) := by
  by_cases hsrc : s.srcOperand + s.lenOperand ≤ s.params.scrCap
  · cases hc : check with
    | some c =>
      rw [runBuilder_of_check hsrc hc] at h
      exact .inl ⟨c, .inr (.inl rfl), (Host.Outcome.next.inj h).symm⟩
    | none =>
      cases hread : Mem.readRange s.scr s.srcOperand s.lenOperand with
      | none => rw [runBuilder_of_unwritten hsrc hc hread] at h; cases h
      | some input =>
        cases hb : build input with
        | error c =>
          rw [runBuilder_of_build_error hsrc hc hread hb] at h
          exact .inl ⟨c, .inr (.inr ⟨input, hb⟩), (Host.Outcome.next.inj h).symm⟩
        | ok pkt =>
          by_cases hd : s.dstOperand + pkt.length ≤ s.params.scrCap
          · rw [runBuilder_of_ok hsrc hc hread hb hd] at h
            exact .inr ⟨input, pkt, hb, hd, (Host.Outcome.next.inj h).symm⟩
          · rw [runBuilder_of_dest_outside hsrc hc hread hb (Nat.not_le.1 hd)] at h
            exact .inl ⟨_, .inl rfl, (Host.Outcome.next.inj h).symm⟩
  · rw [runBuilder_of_source_outside (Nat.not_le.1 hsrc)] at h
    exact .inl ⟨_, .inl rfl, (Host.Outcome.next.inj h).symm⟩

end

/-! ### The operand checks (R94) -/

theorem checkSeqOperand_of_le {s : State} (h : s.arg.seq.toNat ≤ 0xFFFF) : checkSeqOperand s = none := if_neg (Nat.not_lt.2 h)

theorem checkSeqOperand_of_lt {s : State} (h : 0xFFFF < s.arg.seq.toNat) : checkSeqOperand s = some .illegalCommand := if_pos h

theorem checkEthOperands_of_le {s : State} (he : s.arg.ether.toNat ≤ 0xFFFF) (hi : s.cfg.minIfg.toNat ≤ 255) :
    checkEthOperands s = none := (if_neg (Nat.not_lt.2 he)).trans (if_neg (Nat.not_lt.2 hi))

theorem checkEthOperands_of_lt {s : State} (h : 0xFFFF < s.arg.ether.toNat ∨ 255 < s.cfg.minIfg.toNat) :
    checkEthOperands s = some .illegalCommand := by
  by_cases he : 0xFFFF < s.arg.ether.toNat
  · exact if_pos he
  · exact (if_neg he).trans (if_pos (h.resolve_left he))

/-! ### The packets as arithmetic (R96 to R100) -/

theorem shiftLeft_or_eq_add {b k : Nat} (a : Nat) (hb : b < 2 ^ k) : a <<< k ||| b = a * 2 ^ k + b := by
  rw [← Nat.shiftLeft_add_eq_or_of_lt hb, Nat.shiftLeft_eq]

theorem ofNat_mod_256 (n : Nat) : BitVec.ofNat 8 (n % 256) = BitVec.ofNat 8 n := BitVec.eq_of_toNat_eq (by simp)

theorem be16_ofNat (n : Nat) : be16 (BitVec.ofNat 16 n) = [BitVec.ofNat 8 (n / 256), BitVec.ofNat 8 (n % 256)] := by
  have hhigh : n % 65536 / 256 % 256 = n / 256 % 256 := by omega
  have hlow : n % 65536 % 256 = n % 256 := by omega
  simp only [be16, extractLsb'_eq_ofNat_div, BitVec.toNat_ofNat, Nat.pow_zero, Nat.div_one, Nat.reducePow]
  rw [← ofNat_mod_256 (n % 65536 / 256), hhigh, ofNat_mod_256, ← ofNat_mod_256 (n % 65536), hlow]

/-- A header whose fields fit, with its packed octets as sums (R96). -/
theorem oranHeader_eq_ofNat {f : OranFields} (h : oranFieldsFit f = true) :
    oranHeader f =
      [0x00, BitVec.ofNat 8 f.frameId, BitVec.ofNat 8 (f.subframeId * 16 + f.slotId / 4),
        BitVec.ofNat 8 (f.slotId % 4 * 64 + f.symbolId), 0xFF, BitVec.ofNat 8 (0xF0 + f.startPrbu / 256),
        BitVec.ofNat 8 (f.startPrbu % 256), BitVec.ofNat 8 (if f.numPrbu = 273 then 0 else f.numPrbu)] := by
  obtain ⟨-, -, hsl, hsy, hsp, -⟩ := (oranFieldsFit_iff f).1 h
  have h2 : f.subframeId <<< 4 ||| (f.slotId >>> 2 &&& 2 ^ 4 - 1) = f.subframeId * 16 + f.slotId / 4 := by
    rw [Nat.and_two_pow_sub_one_eq_mod, Nat.shiftRight_eq_div_pow, shiftLeft_or_eq_add _ (Nat.mod_lt _ (by decide))]; omega
  have h3 : (f.slotId &&& 2 ^ 2 - 1) <<< 6 ||| (f.symbolId &&& 2 ^ 6 - 1) = f.slotId % 4 * 64 + f.symbolId := by
    rw [Nat.and_two_pow_sub_one_eq_mod, Nat.and_two_pow_sub_one_eq_mod, shiftLeft_or_eq_add _ (Nat.mod_lt _ (by decide))]; omega
  have h5 : 0x3C <<< 2 ||| (f.startPrbu >>> 8 &&& 2 ^ 2 - 1) = 0xF0 + f.startPrbu / 256 := by
    rw [Nat.and_two_pow_sub_one_eq_mod, Nat.shiftRight_eq_div_pow, shiftLeft_or_eq_add _ (Nat.mod_lt _ (by decide))]; omega
  have h6 : f.startPrbu &&& 2 ^ 8 - 1 = f.startPrbu % 256 := Nat.and_two_pow_sub_one_eq_mod _ 8
  rw [← h2, ← h3, ← h5, ← h6]; rfl

theorem oranPacket_of_fit {f : OranFields} (h : oranFieldsFit f = true) (iq : List Octet) :
    oranPacket f iq = .ok (oranHeader f ++ iq) := if_pos h

theorem oranPacket_of_not_fit {f : OranFields} (h : oranFieldsFit f ≠ true) (iq : List Octet) :
    oranPacket f iq = .error .oranFieldOverflow := if_neg h

/-- The eCPRI packet of a payload in range, its two 16-bit fields most significant octet first (R97). -/
theorem ecpriPacket_eq_ofNat (q : Nat) {pl : List Octet} (hpl : pl.length ≤ 0xFFFF) :
    ecpriPacket q pl = .ok ([0x00, 0x00, BitVec.ofNat 8 (pl.length / 256), BitVec.ofNat 8 (pl.length % 256), 0x00, 0x00,
      BitVec.ofNat 8 (q / 256), BitVec.ofNat 8 (q % 256)] ++ pl) := by
  rw [ecpriPacket, if_neg (Nat.not_lt.2 hpl), be16_ofNat, be16_ofNat]; rfl

theorem ecpriPacket_of_lt (q : Nat) {pl : List Octet} (hpl : 0xFFFF < pl.length) : ecpriPacket q pl = .error .ecpriPayloadTooLarge :=
  if_pos hpl

theorem ethFrame_of_lt {d s : BitVec 48} {e2 pl : List Octet} {ifg maxp : Nat} (he : e2.length = 2)
    (h : maxp < (26 + pl.length + ifg + 3) / 4 * 4) : ethFrame d s e2 pl ifg maxp = .error .ethernetFrameTooLarge := by
  rw [← frameLen_eq_round_up] at h
  rcases ethFrame_cases d s e2 pl ifg maxp he with ⟨hle, -⟩ | ⟨-, e⟩
  · omega
  · exact e

/-- The parts of an Ethernet frame of L octets, within the limit (R98 to R100, R150). -/
theorem ethFrame_of_le {d s : BitVec 48} {e2 pl : List Octet} {ifg maxp L : Nat} (he : e2.length = 2)
    (hL : L = (26 + pl.length + ifg + 3) / 4 * 4) (h : L ≤ maxp) :
    ethFrame d s e2 pl ifg maxp = .ok ([0xFB, 0x55, 0x55, 0x55, 0x55, 0x55, 0x55, 0xD5] ++ ethBody d s e2 pl ++
      fcsOctets (ethBody d s e2 pl) ++ List.replicate (L - 26 - pl.length) 0x07) := by
  rw [← frameLen_eq_round_up] at hL
  refine (ethFrame_eq_ok he).2 ⟨hL ▸ h, ?_⟩
  rw [hL, Nat.sub_sub, List.append_assoc, List.append_assoc]; rfl

/-- The MACs and the type field of a frame's body, most significant octet first (R69, R99). -/
theorem ethBody_eq_ofNat (d s : BitVec 48) (e2 pl : List Octet) :
    ethBody d s e2 pl =
      [BitVec.ofNat 8 (d.toNat / 2 ^ 40), BitVec.ofNat 8 (d.toNat / 2 ^ 32), BitVec.ofNat 8 (d.toNat / 2 ^ 24),
        BitVec.ofNat 8 (d.toNat / 2 ^ 16), BitVec.ofNat 8 (d.toNat / 2 ^ 8), BitVec.ofNat 8 d.toNat] ++
      [BitVec.ofNat 8 (s.toNat / 2 ^ 40), BitVec.ofNat 8 (s.toNat / 2 ^ 32), BitVec.ofNat 8 (s.toNat / 2 ^ 24),
        BitVec.ofNat 8 (s.toNat / 2 ^ 16), BitVec.ofNat 8 (s.toNat / 2 ^ 8), BitVec.ofNat 8 s.toNat] ++ e2 ++ pl := by
  rw [ethBody, be48_eq_ofNat, be48_eq_ofNat]

theorem State.ethBuildBody_eq_ofNat (s : State) (pl : List Octet) :
    s.ethBuildBody pl =
      ethBody s.cfg.destMac s.cfg.srcMac [BitVec.ofNat 8 (s.arg.ether.toNat / 256), BitVec.ofNat 8 (s.arg.ether.toNat % 256)] pl := by
  rw [State.ethBuildBody, ← BitVec.ofNat_toNat, be16_ofNat]

/-! ### The results (R133, R142, R155) -/

/-- What SCR holds after a packet of n octets is written (R65). -/
theorem State.read_writeBuilt_scr {s : State} {dst n : Nat} {pkt : List Octet} (hn : pkt.length = n) (x : Nat) :
    Mem.read (s.writeBuilt dst pkt).scr x = if dst ≤ x ∧ x < dst + n then pkt[x - dst]? else Mem.read s.scr x := by
  rw [State.writeBuilt_scr, Mem.read_writeRange, hn]

theorem State.writeBuilt_eq {s : State} {dst n : Nat} {pkt : List Octet} (hn : pkt.length = n) :
    s.writeBuilt dst pkt = { s with scr := (s.writeBuilt dst pkt).scr, resLen := BitVec.ofNat 64 n, lerr := .noError } := by
  subst hn; rfl

/-- Settles O22: every check passes, and the header's packed octets are sums. -/
theorem oranBuildResult : Obligations.OranBuildResult := by
  intro s iq hlen hsrc hwritten hfr hsf hsl hsy hsp hnp hdst
  rw [exec_oranBuild]
  have hfit : oranFieldsFit s.oranOperands = true := (oranFieldsFit_iff _).2 ⟨hfr, hsf, hsl, hsy, hsp, hnp⟩
  have hread : Mem.readRange s.scr s.srcOperand s.lenOperand = some iq := (Mem.readRange_eq_some _ _ _ iq).2 ⟨hlen, hwritten⟩
  have hpkt : (oranHeader s.oranOperands ++ iq).length = 8 + s.arg.len.toNat := by rw [List.length_append, oranHeader_length, hlen]
  refine ⟨s.writeBuilt s.dstOperand (oranHeader s.oranOperands ++ iq), ?_, ?_, fun x => ?_⟩
  · exact runBuilder_of_ok hsrc rfl hread (oranPacket_of_fit hfit iq) (by rw [hpkt]; exact hdst)
  · exact State.writeBuilt_eq hpkt
  · rw [State.read_writeBuilt_scr hpkt, oranHeader_eq_ofNat hfit]; rfl

/-- Settles O23: every check passes, and the two 16-bit fields do not wrap. -/
theorem ecpriBuildResult : Obligations.EcpriBuildResult := by
  intro s pl hlen hsrc hwritten hseq hmax hdst
  rw [exec_ecpriBuild]
  have hread : Mem.readRange s.scr s.srcOperand s.lenOperand = some pl := (Mem.readRange_eq_some _ _ _ pl).2 ⟨hlen, hwritten⟩
  have hok := ecpriPacket_eq_ofNat s.arg.seq.toNat (hlen.trans_le hmax)
  have hpkt := ecpriPacket_length hok
  rw [hlen] at hok hpkt
  refine ⟨s.writeBuilt s.dstOperand _, runBuilder_of_ok hsrc (checkSeqOperand_of_le hseq) hread hok ?_, ?_, fun x => ?_⟩
  · rw [hpkt]; exact hdst
  · exact State.writeBuilt_eq hpkt
  · exact State.read_writeBuilt_scr hpkt x

/-- Settles O24: every check passes, and the frame is its parts in order. -/
theorem ethBuildResult : Obligations.EthBuildResult := by
  intro s pl body L D S C hlen hsrc hwritten he hi hL hmax hdst hD hS hC hbody
  rw [exec_ethBuild]
  have hread : Mem.readRange s.scr s.srcOperand s.lenOperand = some pl := (Mem.readRange_eq_some _ _ _ pl).2 ⟨hlen, hwritten⟩
  have hbody' : body = s.ethBuildBody pl := by rw [hbody, hD, hS, State.ethBuildBody_eq_ofNat, ethBody_eq_ofNat]
  rw [← hlen] at hL
  have hok := ethFrame_of_le (d := s.cfg.destMac) (s := s.cfg.srcMac) (be16_length (s.arg.ether.setWidth 16)) hL hmax
  have hpkt := (ethFrame_length (be16_length _) hok).1
  rw [frameLen_eq_round_up, ← hL] at hpkt
  refine ⟨_, runBuilder_of_ok hsrc (checkEthOperands_of_le he hi) hread hok ?_, ?_, fun x => ?_⟩
  · rw [hpkt]; exact hdst
  · rw [hbody']
    exact congrArg (fun u : State => { u with resCrc := crc32 (s.ethBuildBody pl) }) (State.writeBuilt_eq hpkt)
  · rw [hC, ← be32_eq_ofNat, hbody', ← hlen]
    exact State.read_writeBuilt_scr hpkt x

/-- Settles O25: the commands check in one order, and each check that fails ends the command. -/
theorem builderErrorsInOrder : Obligations.BuilderErrorsInOrder := by
  refine ⟨?_, fun s hsrc hseq => ?_, fun s hsrc hop => ?_, fun s hsrc hwritten => ?_⟩
  · rintro s i (rfl | rfl | rfl) hsrc
    · rw [exec_oranBuild]; exact runBuilder_of_source_outside hsrc
    · rw [exec_ecpriBuild]; exact runBuilder_of_source_outside hsrc
    · rw [exec_ethBuild]; exact runBuilder_of_source_outside hsrc
  · rw [exec_ecpriBuild]; exact runBuilder_of_check hsrc (checkSeqOperand_of_lt hseq)
  · rw [exec_ethBuild]; exact runBuilder_of_check hsrc (checkEthOperands_of_lt hop)
  obtain ⟨input, hread, hlen⟩ := Mem.exists_readRange hwritten
  rw [exec_oranBuild, exec_ecpriBuild, exec_ethBuild]
  refine ⟨fun hbad => ?_, fun hfr hsf hsl hsy hsp hnp hdst => ?_, fun hseq hbig => ?_, fun hseq hle hdst => ?_, fun he hi hbig => ?_,
    fun he hi hle hdst => ?_⟩
  · have hfit : oranFieldsFit s.oranOperands ≠ true := by
      rw [Ne, oranFieldsFit_iff]
      simp only [State.oranOperands]
      omega
    exact runBuilder_of_build_error hsrc rfl hread (oranPacket_of_not_fit hfit input)
  · have hok := oranPacket_of_fit ((oranFieldsFit_iff s.oranOperands).2 ⟨hfr, hsf, hsl, hsy, hsp, hnp⟩) input
    exact runBuilder_of_dest_outside hsrc rfl hread hok (by rw [oranPacket_length hok, hlen]; exact hdst)
  · exact runBuilder_of_build_error hsrc (checkSeqOperand_of_le hseq) hread (ecpriPacket_of_lt _ (hlen ▸ hbig))
  · have hok := ecpriPacket_eq_ofNat s.arg.seq.toNat (hlen.trans_le hle)
    exact runBuilder_of_dest_outside hsrc (checkSeqOperand_of_le hseq) hread hok (by rw [ecpriPacket_length hok, hlen]; exact hdst)
  · exact runBuilder_of_build_error hsrc (checkEthOperands_of_le he hi) hread (ethFrame_of_lt (be16_length _) (hlen ▸ hbig))
  · have hok := ethFrame_of_le (d := s.cfg.destMac) (s := s.cfg.srcMac) (pl := input) (be16_length (s.arg.ether.setWidth 16)) rfl (hlen ▸ hle)
    refine runBuilder_of_dest_outside hsrc (checkEthOperands_of_le he hi) hread hok ?_
    rw [(ethFrame_length (be16_length _) hok).1, frameLen_eq_round_up, hlen]; exact hdst

/-- Settles O26: the checks before the read pass, so the read is reached. -/
theorem unitCommandsFaultOnUnwrittenSource : Obligations.UnitCommandsFaultOnUnwrittenSource := by
  intro s k hsrc hk hnone
  have hread : Mem.readRange s.scr s.srcOperand s.lenOperand = none := Mem.readRange_eq_none hk hnone
  rw [exec_oranBuild, exec_ecpriBuild, exec_ethBuild]
  exact ⟨execCrc32_of_unwritten (Nat.ne_of_gt (Nat.zero_lt_of_lt hk)) hsrc hread, runBuilder_of_unwritten hsrc rfl hread,
    fun hseq => runBuilder_of_unwritten hsrc (checkSeqOperand_of_le hseq) hread,
    fun he hi => runBuilder_of_unwritten hsrc (checkEthOperands_of_le he hi) hread⟩

/-! ### What a unit command can leave (R201, R207, R247) -/

theorem mem_unitCodes_of_oranPacket {f : OranFields} {iq : List Octet} {c : ErrCode} (h : oranPacket f iq = .error c) :
    c ∈ unitCodes ∧ c ≠ .noError := by
  rcases oranPacket_cases f iq with ⟨-, e⟩ | ⟨-, e⟩ <;> rw [h] at e
  · cases e
  · obtain rfl := Except.error.inj e; decide

theorem mem_unitCodes_of_ecpriPacket {q : Nat} {pl : List Octet} {c : ErrCode} (h : ecpriPacket q pl = .error c) :
    c ∈ unitCodes ∧ c ≠ .noError := by
  rcases ecpriPacket_cases q pl with ⟨-, e⟩ | ⟨-, e⟩ <;> rw [h] at e
  · cases e
  · obtain rfl := Except.error.inj e; decide

theorem mem_unitCodes_of_ethFrame {d s : BitVec 48} {e2 pl : List Octet} {ifg maxp : Nat} {c : ErrCode} (he : e2.length = 2)
    (h : ethFrame d s e2 pl ifg maxp = .error c) : c ∈ unitCodes ∧ c ≠ .noError := by
  rcases ethFrame_cases d s e2 pl ifg maxp he with ⟨-, e⟩ | ⟨-, e⟩ <;> rw [h] at e
  · cases e
  · obtain rfl := Except.error.inj e; decide

theorem checkSeqOperand_eq_some {s : State} {c : ErrCode} (h : checkSeqOperand s = some c) : c = .illegalCommand := by
  unfold checkSeqOperand at h
  split at h <;> simp_all

theorem checkEthOperands_eq_some {s : State} {c : ErrCode} (h : checkEthOperands s = some c) : c = .illegalCommand := by
  unfold checkEthOperands at h
  split at h
  · simp_all
  · split at h <;> simp_all

/-- What a unit command leaves: the state with an error in LERR, or with new values in SCR, RES_CRC and RES_LEN and 0 in LERR. -/
inductive UnitEffect (s : State) : State → Prop
  | failed {c : ErrCode} : c ∈ unitCodes ∧ c ≠ .noError → UnitEffect s (s.unitError c)
  | wrote {m : Mem} {crc : BitVec 32} {len : Word} : (Mem.wf s.params.scrCap s.scr = true → Mem.wf s.params.scrCap m = true) →
      UnitEffect s { s with scr := m, resCrc := crc, resLen := len, lerr := .noError }

theorem execCrc32_effect {s t : State} (h : execCrc32 s = .next t) : UnitEffect s t ∧ t.scr = s.scr ∧ t.resLen = s.resLen := by
  by_cases h0 : s.lenOperand = 0
  · rw [execCrc32_of_empty h0] at h
    obtain rfl := Host.Outcome.next.inj h
    exact ⟨.failed (by decide), rfl, rfl⟩
  by_cases hsrc : s.srcOperand + s.lenOperand ≤ s.params.scrCap
  · cases hread : Mem.readRange s.scr s.srcOperand s.lenOperand with
    | none => rw [execCrc32_of_unwritten h0 hsrc hread] at h; cases h
    | some input =>
      rw [execCrc32_of_written h0 hsrc hread] at h
      obtain rfl := Host.Outcome.next.inj h
      exact ⟨.wrote id, rfl, rfl⟩
  · rw [execCrc32_of_outside h0 (Nat.not_le.1 hsrc)] at h
    obtain rfl := Host.Outcome.next.inj h
    exact ⟨.failed (by decide), rfl, rfl⟩

theorem runBuilder_effect {check : Option ErrCode} {build : List Octet → Except ErrCode (List Octet)}
    {record : List Octet → State → State} {s t : State} (h : runBuilder check build record s = .next t)
    (hcheck : ∀ c, check = some c → c = .illegalCommand) (hbuild : ∀ pl c, build pl = .error c → c ∈ unitCodes ∧ c ≠ .noError)
    (hrecord : ∀ pl u, ∃ crc, record pl u = { u with resCrc := crc }) : UnitEffect s t := by
  rcases runBuilder_eq_next h with ⟨c, hc, rfl⟩ | ⟨input, pkt, -, hdst, rfl⟩
  · refine .failed ?_
    rcases hc with rfl | hc | ⟨pl, hc⟩
    · decide
    · obtain rfl := hcheck c hc; decide
    · exact hbuild pl c hc
  · obtain ⟨crc, e⟩ := hrecord input (s.writeBuilt s.dstOperand pkt)
    rw [e]
    exact .wrote fun hwf => Mem.wf_writeRange hwf (.inl hdst)

theorem exec_unit_effect {i : Instr} {s t : State} (hi : i.isUnit = true) (h : exec i s = .next t) : UnitEffect s t := by
  cases i with
  | clear | plan | step | run | finish => cases hi
  | crc32 => exact (execCrc32_effect h).1
  | oranBuild =>
    rw [exec_oranBuild] at h
    exact runBuilder_effect h (fun _ hc => nomatch hc) (fun _ _ => mem_unitCodes_of_oranPacket) fun _ u => ⟨u.resCrc, rfl⟩
  | ecpriBuild =>
    rw [exec_ecpriBuild] at h
    exact runBuilder_effect h (fun _ => checkSeqOperand_eq_some) (fun _ _ => mem_unitCodes_of_ecpriPacket) fun _ u => ⟨u.resCrc, rfl⟩
  | ethBuild =>
    rw [exec_ethBuild] at h
    exact runBuilder_effect h (fun _ => checkEthOperands_eq_some) (fun _ _ => mem_unitCodes_of_ethFrame (be16_length _)) fun _ _ => ⟨_, rfl⟩

/-- Settles O30: a command that wrote its results has cleared LERR. -/
theorem unitErrorChangesOnlyLerr : Obligations.UnitErrorChangesOnlyLerr := by
  intro i s t hi h hlerr
  cases exec_unit_effect hi h with
  | failed _ => rfl
  | wrote _ => exact absurd rfl hlerr

theorem runBuilder_resCrc {check : Option ErrCode} {build : List Octet → Except ErrCode (List Octet)} {s t : State}
    (h : runBuilder check build (fun _ u => u) s = .next t) : t.resCrc = s.resCrc := by
  rcases runBuilder_eq_next h with ⟨c, -, rfl⟩ | ⟨input, pkt, -, -, rfl⟩ <;> rfl

/-- Settles O31: the two forms of `UnitEffect` name the fields a unit command can change, and each command records its own results. -/
theorem unitCommandsLeaveRunUnchanged : Obligations.UnitCommandsLeaveRunUnchanged := by
  intro i s t hi h
  refine ⟨?_, ?_, ?_⟩
  · cases exec_unit_effect hi h with
    | failed _ => rfl
    | wrote _ => rfl
  · rintro rfl; exact (execCrc32_effect h).2
  · rintro (rfl | rfl)
    · rw [exec_oranBuild] at h; exact runBuilder_resCrc h
    · rw [exec_ecpriBuild] at h; exact runBuilder_resCrc h

end Sys2Proof.Machine
end

section
/-! PROOFS. PLAN's result (R171), and STEP and FINISH (R190, R192): the payload slice (R182, R183), the frame the builders answer (R189), what each
command writes to OUT, and what an error leaves (R205). -/

namespace Sys2Proof.Machine

/-! ### PLAN (R160 to R172) -/

/-- The bound on the last product of R169 bounds the others: each is a factor of it. -/
theorem planTooWide_eq_false {c : CfgRegs} (hrate : c.lineRate.toNat ≤ 255) (hms : c.captureMs.toNat ≤ 255) (hframes : 1 ≤ c.captureMs.toNat / 10)
    (h : (planValues c).totalPackets * (planValues c).iqPerPkt < 2 ^ 64) : planTooWide (planValues c) = false := by
  have hbytes : (planValues c).totalBytes ≤ 255 * 255 * 125000 := by
    rw [planValues_totalBytes]
    exact Nat.mul_le_mul_right _ (Nat.mul_le_mul hrate hms)
  have hiq : 1 ≤ (planValues c).iqPerPkt := Nat.mul_pos (by decide) (normalizePrb_pos c.nrbPerPkt)
  have htotal : (planValues c).totalPackets < 2 ^ 64 := (Nat.le_mul_of_pos_right _ hiq).trans_lt h
  have hframe : (planValues c).pktsPerFrame < 2 ^ 64 := (Nat.le_mul_of_pos_right _ hframes).trans_lt htotal
  have hsubframe : (planValues c).pktsPerSubframe < 2 ^ 64 := (Nat.le_mul_of_pos_right _ (by decide)).trans_lt hframe
  rw [Bool.eq_false_iff, Ne, planTooWide_iff]
  omega

/-- Settles O33: the hypotheses are the checks of R167, and the stored plan is the derived one, register by register. -/
theorem planStoresDerivedPlan : Obligations.PlanStoresDerivedPlan := by
  rintro s M N T hp rfl rfl rfl hpt hrate hms hifg hmax hnrb hscs hscs15 hms0 hms10 hle hwide hpool hout
  have hrange : cfgOutOfRange s.cfg = false := by
    rw [Bool.eq_false_iff, Ne, cfgOutOfRange_iff]; omega
  have hpoolOk : poolUnusable s.params s.cfg = false := by
    rw [Bool.eq_false_iff, Ne, poolUnusable_iff]
    rintro ⟨hfixed, hbad⟩
    have := hpool hfixed
    omega
  have hbytes : (planValues s.cfg).totalBytes ≤ s.params.outCap := (planValues_totalBytes s.cfg).trans_le hout
  have hchecks : planChecks s.params s.cfg = .ok (planValues s.cfg) :=
    planChecks_eq_ok.2 ⟨rfl, hpt, hrange, hscs, hscs15, hms0, hms10, hle, planTooWide_eq_false hrate hms (by omega) hwide, hpoolOk, hbytes⟩
  have hpoolLen : (planValues s.cfg).toRegs.poolLen = if s.cfg.payloadType = 1 then s.cfg.poolLen else
      BitVec.ofNat 64 ((planValues s.cfg).totalPackets * (planValues s.cfg).iqPerPkt) := by
    simp only [PlanValues.toRegs, planValues, CfgRegs.fixedMode, decide_eq_true_eq]
    split
    · rw [BitVec.ofNat_toNat, BitVec.setWidth_eq]
    · rfl
  have hframeLen := frameLen_eq_round_up (16 + (planValues s.cfg).iqPerPkt) s.cfg.minIfg.toNat
  rw [exec_plan_of_ok hp hchecks]
  refine congrArg (fun r => Host.Outcome.next (s.planned r)) ?_
  calc (planValues s.cfg).toRegs
      = { (planValues s.cfg).toRegs with
          totalBytes := BitVec.ofNat 64 (planValues s.cfg).totalBytes, poolLen := (planValues s.cfg).toRegs.poolLen,
          frameLen := BitVec.ofNat 64 (frameLen (16 + (planValues s.cfg).iqPerPkt) s.cfg.minIfg.toNat) } := rfl
    _ = _ := by rw [planValues_totalBytes, hpoolLen, hframeLen]; rfl

/-! ### The payload slice (R182, R183) -/

theorem State.poolOctet_fixed {s : State} (h : s.cfg.payloadType = 1) (k : Nat) :
    s.poolOctet k = s.readOctet .pool (k % s.plan.poolLen.toNat) := if_pos (decide_eq_true h)

theorem State.poolOctet_random {s : State} (h : s.cfg.payloadType ≠ 1) (k : Nat) :
    s.poolOctet k = .ok (Config.rngOctet s.cfg.rngSeed (BitVec.ofNat 64 k)) := if_neg (by simpa [CfgRegs.fixedMode] using h)

/-- A read of the payload fails in one way (R64, R182). -/
theorem State.poolOctet_eq_error {s : State} {k : Nat} {f : Fault} (h : s.poolOctet k = .error f) : f = .unwrittenOctet := by
  by_cases hfixed : s.cfg.payloadType = 1
  · rw [State.poolOctet_fixed hfixed] at h
    rcases s.readOctet_cases .pool (k % s.plan.poolLen.toNat) with ⟨b, e, -⟩ | ⟨e, -⟩ <;> rw [h] at e
    · cases e
    · exact Except.error.inj e
  · rw [State.poolOctet_random hfixed] at h; cases h

theorem State.poolOctets_eq_error {s : State} {k n : Nat} {f : Fault} (h : s.poolOctets k n = .error f) : f = .unwrittenOctet := by
  induction n generalizing k with
  | zero => cases h
  | succ n ih =>
    rw [State.poolOctets] at h
    split at h
    next g hg => obtain rfl := Except.error.inj h; exact State.poolOctet_eq_error hg
    next b _ =>
      split at h
      next g hg => obtain rfl := Except.error.inj h; exact ih hg
      next => cases h

/-- The slice of packet p, octet by octet (R183). -/
theorem State.iqSlice_eq_ok {s : State} {p : Nat} {iq : List Octet} :
    s.iqSlice p = .ok iq ↔ iq.length = s.plan.iqPerPkt.toNat ∧
      ∀ i (h : i < iq.length), s.poolOctet (p * s.plan.iqPerPkt.toNat + i) = .ok iq[i] :=
  s.poolOctets_eq_ok _ _ _

theorem State.iqSlice_fixed {s : State} (hfixed : s.cfg.payloadType = 1) {p : Nat} {iq : List Octet} (h : s.iqSlice p = .ok iq) {i : Nat}
    (hi : i < iq.length) : s.readOctet .pool ((p * s.plan.iqPerPkt.toNat + i) % s.plan.poolLen.toNat) = .ok iq[i] := by
  rw [← State.poolOctet_fixed hfixed]
  exact (State.iqSlice_eq_ok.1 h).2 i hi

theorem State.iqSlice_of_unwritten {s : State} (hfixed : s.cfg.payloadType = 1) {p i : Nat} (hi : i < s.plan.iqPerPkt.toNat)
    (hnone : Mem.read s.pool ((p * s.plan.iqPerPkt.toNat + i) % s.plan.poolLen.toNat) = none) :
    s.iqSlice p = .error .unwrittenOctet := by
  cases hslice : s.iqSlice p with
  | error f => rw [State.poolOctets_eq_error hslice]
  | ok iq =>
    have hread := State.iqSlice_fixed hfixed hslice (i := i) (by rw [State.iqSlice_length hslice]; exact hi)
    rw [State.readOctet_of_unwritten (sp := .pool) (.inl hnone)] at hread
    cases hread

theorem stepBody_of_slice_error {s : State} {f : Fault} (h : s.iqSlice s.packetNo.toNat = .error f) : stepBody s = .faulted f := by
  simp only [stepBody, h]

/-- Settles O37: the slice is the pool octets from the cursor on, and STEP and RUN read it first. -/
theorem payloadSliceFollowsCursor : Obligations.PayloadSliceFollowsCursor := by
  refine ⟨fun s p => ⟨fun hrandom => ?_, fun hfixed iq hslice => ?_, fun hfixed i hi => State.iqSlice_of_unwritten hfixed hi⟩,
    fun s i hphase hleft hfixed hi hnone => ?_⟩
  · refine State.iqSlice_eq_ok.2 ⟨by simp, fun i hi => ?_⟩
    rw [State.poolOctet_random hrandom, List.getElem_map, List.getElem_range]
  · refine ⟨State.iqSlice_length hslice, fun i hi => ?_⟩
    rw [List.getElem?_eq_getElem hi]
    exact (State.mem_read_of_readOctet (State.iqSlice_fixed hfixed hslice hi)).2
  · have hfault := stepBody_of_slice_error (State.iqSlice_of_unwritten hfixed hi hnone)
    have hrun := runBody_of_stepBody_stops hleft (fun t h => by rw [hfault] at h; cases h)
    rw [exec_step_of_legal (hphase.imp_right fun h => ⟨h, hleft⟩), exec_run_of_legal hphase, hrun, hfault]
    exact ⟨rfl, rfl⟩

/-! ### The state in which the builders run (R184, R190) -/

theorem State.advanced_ids (s : State) :
    s.advanced.ids = if s.packetNo.toNat = 0 then s.ids else advanceIds s.plan s.packetNo.toNat s.ids := by
  unfold State.advanced; split <;> rfl

theorem State.sliced_eq (iq : List Octet) (s : State) : s.sliced iq = { s with ids := s.advanced.ids, iqScratch := iq } := by
  unfold State.sliced State.advanced; split <;> rfl

/-- Of the fields STEP hands to the O-RAN builder, the counters of 8 and 4 bits always fit (R45, R131). -/
theorem State.oranFieldsFit_iff (s : State) :
    oranFieldsFit s.oranFields = true ↔
      s.ids.slotId.toNat ≤ 63 ∧ s.ids.startPrbu.toNat ≤ 1023 ∧ (s.plan.nrbPerPkt.toNat ≤ 255 ∨ s.plan.nrbPerPkt.toNat = 273) := by
  have hframe := s.ids.frameId.isLt
  have hsubframe := s.ids.subframeId.isLt
  have hsymbol := s.ids.symbolId.isLt
  rw [Sys2Proof.Machine.oranFieldsFit_iff]
  simp only [State.oranFields]
  omega

/-! ### The frame of a packet (R189) -/

/-- The eCPRI and the O-RAN header in front of a slice of n octets (R96, R97). -/
def State.packetHeaders (s : State) (n : Nat) : List Octet :=
  [0x00, 0x00, BitVec.ofNat 8 ((8 + n) / 256), BitVec.ofNat 8 ((8 + n) % 256), 0x00, 0x00, 0x00, s.ids.ecpriSeqId] ++
    [0x00, s.ids.frameId, BitVec.ofNat 8 (s.ids.subframeId.toNat * 16 + s.ids.slotId.toNat / 4),
      BitVec.ofNat 8 (s.ids.slotId.toNat % 4 * 64 + s.ids.symbolId.toNat), 0xFF, BitVec.ofNat 8 (0xF0 + s.ids.startPrbu.toNat / 256),
      BitVec.ofNat 8 (s.ids.startPrbu.toNat % 256),
      BitVec.ofNat 8 (if s.plan.nrbPerPkt.toNat = 273 then 0 else s.plan.nrbPerPkt.toNat)]

theorem State.packetHeaders_length (s : State) (n : Nat) : (s.packetHeaders n).length = 16 := rfl

/-- The eCPRI packet that carries a packet's slice. -/
def State.ecpriOctets (s : State) (iq : List Octet) : List Octet := s.packetHeaders iq.length ++ iq

theorem State.ecpriOctets_length (s : State) (iq : List Octet) : (s.ecpriOctets iq).length = 16 + iq.length := by
  rw [State.ecpriOctets, List.length_append, State.packetHeaders_length]

/-- The octets a packet's FCS covers (R98, R99, R188). -/
def State.frameBody (s : State) (iq : List Octet) : List Octet :=
  ethBody s.cfg.destMac s.cfg.srcMac
    [BitVec.ofNat 8 (etherValue s.params.etherSel (16 + iq.length) / 2 ^ 8), BitVec.ofNat 8 (etherValue s.params.etherSel (16 + iq.length))]
    (s.ecpriOctets iq)

theorem State.oranPacket_ecpriPacket {s : State} {iq : List Octet} (hfit : oranFieldsFit s.oranFields = true) (hlen : 8 + iq.length ≤ 0xFFFF) :
    oranPacket s.oranFields iq = .ok (oranHeader s.oranFields ++ iq) ∧
      ecpriPacket s.ids.ecpriSeqId.toNat (oranHeader s.oranFields ++ iq) = .ok (s.ecpriOctets iq) := by
  have hseq := s.ids.ecpriSeqId.isLt
  have horan : (oranHeader s.oranFields ++ iq).length = 8 + iq.length := by rw [List.length_append, oranHeader_length]
  refine ⟨oranPacket_of_fit hfit iq, ?_⟩
  rw [ecpriPacket_eq_ofNat _ (horan.trans_le hlen), horan, oranHeader_eq_ofNat hfit, Nat.div_eq_of_lt hseq, Nat.mod_eq_of_lt hseq]
  simp only [State.oranFields, BitVec.ofNat_toNat, BitVec.setWidth_eq]
  rfl

/-- The frame of a packet whose fields and length are within their limits (R189). -/
theorem State.buildPacket_eq_ok {s : State} {iq : List Octet} {F : Nat} (hfit : oranFieldsFit s.oranFields = true)
    (hlen : 8 + iq.length ≤ 0xFFFF) (hF : F = (42 + iq.length + s.cfg.minIfg.toNat + 3) / 4 * 4) (hmax : F ≤ s.cfg.maxPkt.toNat) :
    s.buildPacket iq = .ok ([0xFB, 0x55, 0x55, 0x55, 0x55, 0x55, 0x55, 0xD5] ++ s.frameBody iq ++ fcsOctets (s.frameBody iq) ++
      List.replicate (F - (42 + iq.length)) 0x07) := by
  obtain ⟨horan, hecpri⟩ := State.oranPacket_ecpriPacket hfit hlen
  have hec := s.ecpriOctets_length iq
  have hround : F = (26 + (s.ecpriOctets iq).length + s.cfg.minIfg.toNat + 3) / 4 * 4 := by rw [hF, hec]; omega
  have hpad : F - (42 + iq.length) = F - 26 - (s.ecpriOctets iq).length := by omega
  have hbody : s.frameBody iq = ethBody s.cfg.destMac s.cfg.srcMac
      (be16 (BitVec.ofNat 16 (etherValue s.params.etherSel (s.ecpriOctets iq).length))) (s.ecpriOctets iq) := by
    rw [be16_ofNat, hec, ofNat_mod_256]; rfl
  simp only [State.buildPacket, horan, hecpri]
  rw [ethFrame_of_le (be16_length _) hround hmax, hbody, hpad]

/-- A frame that the builders answer has the form of `buildPacket_eq_ok`: its limits are their checks (R131, R140, R153). -/
theorem State.eq_of_buildPacket {s : State} {iq fr : List Octet} (h : s.buildPacket iq = .ok fr) :
    fr = [0xFB, 0x55, 0x55, 0x55, 0x55, 0x55, 0x55, 0xD5] ++ s.frameBody iq ++ fcsOctets (s.frameBody iq) ++
      List.replicate (fr.length - (42 + iq.length)) 0x07 := by
  rcases s.buildPacket_cases iq with ⟨f, e, hfit, hlen, hmax⟩ | ⟨e, -⟩ | ⟨e, -⟩ | ⟨e, -⟩ <;> rw [h] at e
  · obtain rfl := Except.ok.inj e
    have hround : fr.length = (42 + iq.length + s.cfg.minIfg.toNat + 3) / 4 * 4 := by rw [hlen, frameLen_eq_round_up]; omega
    have hfits : 8 + iq.length ≤ 0xFFFF := by
      by_contra hbig
      have hover : 0xFFFF < (oranHeader s.oranFields ++ iq).length := by rw [List.length_append, oranHeader_length]; omega
      simp only [State.buildPacket, oranPacket_of_fit hfit iq, ecpriPacket_of_lt _ hover, reduceCtorEq] at h
    exact Except.ok.inj (h.symm.trans (State.buildPacket_eq_ok hfit hfits hround hmax))
  all_goals cases e

/-- The slice stands in its frame behind 38 octets: preamble, addresses, type field and the two headers (R98, R195). -/
theorem State.getElem?_frame_payload {s : State} {iq fr : List Octet} (h : s.buildPacket iq = .ok fr) {i : Nat} (hi : i < iq.length) :
    fr[38 + i]? = some iq[i] := by
  have hparts : fr = ([0xFB, 0x55, 0x55, 0x55, 0x55, 0x55, 0x55, 0xD5] ++ be48 s.cfg.destMac ++ be48 s.cfg.srcMac ++
      [BitVec.ofNat 8 (etherValue s.params.etherSel (16 + iq.length) / 2 ^ 8),
        BitVec.ofNat 8 (etherValue s.params.etherSel (16 + iq.length))] ++ s.packetHeaders iq.length) ++
      (iq ++ (fcsOctets (s.frameBody iq) ++ List.replicate (fr.length - (42 + iq.length)) 0x07)) := by
    refine (State.eq_of_buildPacket h).trans ?_
    simp only [State.frameBody, ethBody, State.ecpriOctets, List.append_assoc]
  rw [hparts, List.getElem?_append_right (Nat.le_add_right 38 i)]
  simp only [List.length_append, State.packetHeaders_length, be48_length, List.length_cons, List.length_nil, Nat.reduceAdd,
    Nat.add_sub_cancel_left]
  rw [List.getElem?_append_left hi, List.getElem?_eq_getElem hi]

/-! ### STEP (R190) -/

theorem stepBody_of_frame {s : State} {iq fr : List Octet} (hslice : s.iqSlice s.packetNo.toNat = .ok iq)
    (hbuild : (s.sliced iq).buildPacket iq = .ok fr) : stepBody s = .done ((s.sliced iq).frameEmitted fr) := by
  simp only [stepBody, hslice, hbuild]

theorem stepBody_of_error {s : State} {iq : List Octet} {c : ErrCode} (hslice : s.iqSlice s.packetNo.toNat = .ok iq)
    (hbuild : (s.sliced iq).buildPacket iq = .error c) : stepBody s = .raised c (s.sliced iq) := by
  simp only [stepBody, hslice, hbuild]

/-- Settles O35: the slice is readable, the builders answer the frame, and `Emit` stores it. -/
theorem stepEmitsFrame : Obligations.StepEmitsFrame := by
  intro s d iq body fr I F D S E C hphase hd hI hiq hfixed hrandom hslot hstart hnrb hlen hF hmax hD hS hC hE hbody hfr
  have hids : s.advanced.ids = d := s.advanced_ids.trans hd.symm
  have hslice : s.iqSlice s.packetNo.toNat = .ok iq := by
    refine State.iqSlice_eq_ok.2 ⟨hiq.trans hI, fun i hi => ?_⟩
    rw [← hI]
    by_cases hpt : s.cfg.payloadType = 1
    · obtain ⟨hcap, hread⟩ := hfixed hpt i (hiq ▸ hi)
      rw [State.poolOctet_fixed hpt]
      exact State.readOctet_of_read hcap (hread.trans (List.getElem?_eq_getElem hi))
    · have hrng := hrandom hpt i (hiq ▸ hi)
      rw [List.getElem?_eq_getElem hi] at hrng
      rw [State.poolOctet_random hpt, Option.some.inj hrng]
  have hfit : oranFieldsFit (s.sliced iq).oranFields = true := by
    rw [State.oranFieldsFit_iff, State.sliced_ids, State.sliced_plan, hids]; exact ⟨hslot, hstart, hnrb⟩
  have hbody' : body = (s.sliced iq).frameBody iq := by
    rw [State.frameBody, ethBody_eq_ofNat, hbody, hD, hS, hE, State.sliced_eq, hids, ← hiq]
    simp only [State.ecpriOctets, State.packetHeaders, List.append_assoc]
    cases s.params.etherSel <;> rfl
  have hbuild : (s.sliced iq).buildPacket iq = .ok fr := by
    rw [hfr, hC, ← be32_eq_ofNat, hbody', ← hiq]
    exact State.buildPacket_eq_ok hfit (by rw [hiq]; exact hlen) (by rw [State.sliced_cfg, hiq]; exact hF) (by rw [State.sliced_cfg]; exact hmax)
  have hfrlen : fr.length = F := by
    rw [hfr, hbody']
    simp only [List.length_append, State.frameBody, ethBody_length, State.ecpriOctets_length, List.length_cons, List.length_nil,
      List.length_replicate, hiq]
    omega
  refine ⟨(s.sliced iq).frameEmitted fr, ?_, ?_, fun x => ?_⟩
  · rw [exec_step_of_legal hphase, stepBody_of_frame hslice hbuild]; rfl
  · rw [State.sliced_eq, hids, ← hfrlen]; rfl
  · rw [State.frameEmitted_out, State.emit_out_read, State.sliced_emitted, State.sliced_params, State.sliced_out, hfrlen]

/-- Settles O36: the builders' first error is raised on the state with the advance and the slice. -/
theorem stepErrorEmitsNothing : Obligations.StepErrorEmitsNothing := by
  intro s d iq hphase hd hslice
  have hids : s.advanced.ids = d := s.advanced_ids.trans hd.symm
  have hfit := (s.sliced iq).oranFieldsFit_iff
  rw [State.sliced_ids, State.sliced_plan, hids] at hfit
  have herror {c} (hbuild : (s.sliced iq).buildPacket iq = .error c) :
      exec .step s = .next { s with ids := d, iqScratch := iq, err := c, phase := .error } := by
    rw [exec_step_of_legal hphase, stepBody_of_error hslice hbuild, State.sliced_eq, hids]; rfl
  have hround : frameLen (16 + iq.length) (s.sliced iq).cfg.minIfg.toNat = (42 + iq.length + s.cfg.minIfg.toNat + 3) / 4 * 4 := by
    rw [frameLen_eq_round_up, State.sliced_cfg]; omega
  refine ⟨fun hbad => herror ?_, fun hslot hstart hnrb hlen hlong => herror ?_⟩
  all_goals
    rcases (s.sliced iq).buildPacket_cases iq with ⟨fr, -, hok, hfr, hle⟩ | ⟨e, hno⟩ | ⟨-, hok, hbig⟩ | ⟨e, hok, -⟩
  · have := hfit.1 hok; omega
  · exact e
  · have := hfit.1 hok; omega
  · have := hfit.1 hok; omega
  · rw [hfr, hround, State.sliced_cfg] at hle; omega
  · rw [hfit.2 ⟨hslot, hstart, hnrb⟩] at hno; cases hno
  · omega
  · exact e

/-! ### FINISH (R192) -/

/-- FINISH within the budget counts the stream up to `total_bytes`. -/
theorem State.finished_emitted_eq {s : State} (h : s.emitted.toNat ≤ s.plan.totalBytes.toNat) :
    (s.finished (s.plan.totalBytes.toNat - s.emitted.toNat)).emitted = BitVec.ofNat 128 s.plan.totalBytes.toNat := by
  rw [State.finished_emitted, State.emit_emitted, List.length_replicate, Nat.add_sub_cancel' h]

/-- What OUT reads after FINISH: 0x07 at the stream positions from EMITTED up to the end, those below OUT_CAP only. -/
theorem State.finished_out_read (s : State) (t x : Nat) :
    Mem.read (s.finished t).out x =
      if s.emitted.toNat ≤ x ∧ x < s.emitted.toNat + t ∧ x < s.params.outCap then some ifgOctet else Mem.read s.out x := by
  rw [State.finished_out, State.emit_out_read, List.length_replicate]
  by_cases h : s.emitted.toNat ≤ x ∧ x < s.emitted.toNat + t ∧ x < s.params.outCap
  · rw [if_pos h, if_pos h, List.getElem?_replicate, if_pos (by omega)]
  · rw [if_neg h, if_neg h]

/-- Settles O41: FINISH is legal, within the budget, and emits octets of 0x07. -/
theorem finishAppendsTrailingIfg : Obligations.FinishAppendsTrailingIfg := by
  rintro s t hphase hno hle rfl
  have hemitted := State.finished_emitted_eq hle
  rcases finishBody_cases s with ⟨hover, -⟩ | ⟨-, hdone⟩
  · omega
  · refine ⟨_, by rw [exec_finish_of_legal ⟨hphase, hno⟩, hdone]; rfl, by rw [← hemitted]; rfl, ?_, fun x => ?_⟩
    · have hB := s.plan.totalBytes.isLt
      refine (congrArg (BitVec.setWidth 64) hemitted).trans (BitVec.eq_of_toNat_eq ?_)
      rw [BitVec.toNat_setWidth, BitVec.toNat_ofNat]
      omega
    · rw [State.finished_out_read, Nat.add_sub_cancel' hle]; rfl

/-- Settles O42: FINISH is legal and over the budget. -/
theorem finishOverBudgetIsInfeasible : Obligations.FinishOverBudgetIsInfeasible := by
  intro s hphase hno hover
  rcases finishBody_cases s with ⟨-, hraised⟩ | ⟨hle, -⟩
  · rw [exec_finish_of_legal ⟨hphase, hno⟩, hraised]; rfl
  · omega

end Sys2Proof.Machine
end

section
/-! PROOFS. Everything a step can change, said once: what the assembler's bodies leave, what each command answers, what each host event does. The
rules of the whole machine (R25, R27, R40, R44, R63, R208, R242) are read off those lists. -/

namespace Sys2Proof.Machine

/-! ### What STEP, RUN and FINISH change (R190 to R192) -/

/-- The fields that STEP, RUN and FINISH can change; ERR changes only on entry to ERROR, and OUT keeps its form. -/
structure State.RunFrame (s t : State) : Prop where
  eq : t = { s with
    err := t.err, phase := t.phase, packetNo := t.packetNo, emitted := t.emitted, ids := t.ids, iqScratch := t.iqScratch, out := t.out,
    resTrailIfg := t.resTrailIfg }
  err : t.err = s.err ∨ t.phase = .error
  out_wf : Mem.wf s.params.outCap s.out = true → Mem.wf s.params.outCap t.out = true

theorem State.RunFrame.params_eq {s t : State} (h : s.RunFrame t) : t.params = s.params := (congrArg State.params h.eq :)
theorem State.RunFrame.cfg_eq {s t : State} (h : s.RunFrame t) : t.cfg = s.cfg := (congrArg State.cfg h.eq :)
theorem State.RunFrame.plan_eq {s t : State} (h : s.RunFrame t) : t.plan = s.plan := (congrArg State.plan h.eq :)
theorem State.RunFrame.pool_eq {s t : State} (h : s.RunFrame t) : t.pool = s.pool := (congrArg State.pool h.eq :)
theorem State.RunFrame.scr_eq {s t : State} (h : s.RunFrame t) : t.scr = s.scr := (congrArg State.scr h.eq :)
theorem State.RunFrame.lerr_eq {s t : State} (h : s.RunFrame t) : t.lerr = s.lerr := (congrArg State.lerr h.eq :)
theorem State.RunFrame.locked_eq {s t : State} (h : s.RunFrame t) : t.locked = s.locked := (congrArg State.locked h.eq :)

theorem State.RunFrame.refl (s : State) : s.RunFrame s := ⟨rfl, .inl rfl, id⟩

theorem State.RunFrame.trans {s t u : State} (h : s.RunFrame t) (hp : t.phase ≠ .error) (h' : t.RunFrame u) : s.RunFrame u where
  eq := h'.eq.trans (congrArg (fun v : State => { v with
    err := u.err, phase := u.phase, packetNo := u.packetNo, emitted := u.emitted, ids := u.ids, iqScratch := u.iqScratch, out := u.out,
    resTrailIfg := u.resTrailIfg }) h.eq)
  err := h'.err.imp_left fun e => e.trans (h.err.resolve_right hp)
  out_wf := fun hwf => h.params_eq ▸ h'.out_wf (h.params_eq.symm ▸ h.out_wf hwf)

theorem State.RunFrame.sliced (s : State) (iq : List Octet) : s.RunFrame (s.sliced iq) where
  eq := by rw [State.sliced_eq]
  err := .inl (s.sliced_err iq)
  out_wf := fun hwf => by rw [State.sliced_out]; exact hwf

theorem State.RunFrame.sequencerError {s t : State} (h : s.RunFrame t) (c : ErrCode) : s.RunFrame (t.sequencerError c) where
  eq := congrArg (State.sequencerError c) h.eq
  err := .inr rfl
  out_wf := h.out_wf

theorem State.RunFrame.emit {s t : State} (h : s.RunFrame t) (hp : t.phase ≠ .error) (bs : List Octet) : s.RunFrame (t.emit bs) :=
  h.trans hp ⟨rfl, .inl rfl, State.emit_out_wf bs⟩

theorem State.RunFrame.finished {s t : State} (h : s.RunFrame t) (hp : t.phase ≠ .error) (n : Nat) : s.RunFrame (t.finished n) :=
  h.trans hp ⟨rfl, .inl rfl, State.emit_out_wf (List.replicate n ifgOctet)⟩

theorem stepBody_runFrame {s t : State} (hp : s.phase ≠ .error) (h : (stepBody s).outcome = .next t) : s.RunFrame t := by
  rcases stepBody_cases s with ⟨f, -, e⟩ | ⟨iq, -, ⟨c, -, e⟩ | ⟨fr, -, e⟩⟩ <;> rw [e] at h
  · cases h
  · obtain rfl := Host.Outcome.next.inj h
    exact (State.RunFrame.sliced s iq).sequencerError c
  · obtain rfl := Host.Outcome.next.inj h
    have hemit := (State.RunFrame.sliced s iq).emit (by rwa [State.sliced_phase]) fr
    exact ⟨congrArg (fun u : State => { u with packetNo := (s.sliced iq).packetNo + 1, phase := .running }) hemit.eq,
      .inl (hemit.err.resolve_right (by simpa using hp)), hemit.out_wf⟩

theorem finishBody_runFrame {s t : State} (hp : s.phase ≠ .error) (h : (finishBody s).outcome = .next t) : s.RunFrame t := by
  rcases finishBody_cases s with ⟨-, e⟩ | ⟨-, e⟩ <;> rw [e] at h <;> obtain rfl := Host.Outcome.next.inj h
  · exact (State.RunFrame.refl s).sequencerError _
  · exact (State.RunFrame.refl s).finished hp _

theorem finishBody_packetNo {s t : State} (h : (finishBody s).outcome = .next t) : t.packetNo = s.packetNo := by
  rcases finishBody_cases s with ⟨-, e⟩ | ⟨-, e⟩ <;> rw [e] at h <;> obtain rfl := Host.Outcome.next.inj h <;> rfl

/-- RUN ends as STEP does at the first packet it cannot emit, or as FINISH does when none is left; what each emitted packet keeps holds there. -/
theorem runBody_cases (P : State → Prop)
    (hstep : ∀ r u, P r → r.packetNo.toNat < r.plan.totalPackets.toNat → stepBody r = .done u → P u) {s : State} (hs : P s) :
    ∃ r, P r ∧
      ((r.packetNo.toNat < r.plan.totalPackets.toNat ∧ (∀ u, stepBody r ≠ .done u) ∧ runBody s = stepBody r) ∨
        (r.plan.totalPackets.toNat ≤ r.packetNo.toNat ∧ runBody s = finishBody r)) := by
  generalize hn : s.plan.totalPackets.toNat - s.packetNo.toNat = n
  induction n generalizing s with
  | zero => exact ⟨s, hs, .inr ⟨by omega, runBody_of_no_packets_left (by omega)⟩⟩
  | succ n ih =>
    have hleft : s.packetNo.toNat < s.plan.totalPackets.toNat := by omega
    by_cases hdone : ∃ u, stepBody s = .done u
    · obtain ⟨u, hu⟩ := hdone
      obtain ⟨-, hplan, hno⟩ := stepBody_eq_done hu
      have hcount : u.plan.totalPackets.toNat - u.packetNo.toNat = n := by
        have hT := s.plan.totalPackets.isLt
        rw [hplan, hno]; bv_omega
      rw [runBody_of_stepBody_done hleft hu]
      exact ih (hstep s u hs hleft hu) hcount
    · have hstops (u : State) : stepBody s ≠ .done u := fun hu => hdone ⟨u, hu⟩
      exact ⟨s, hs, .inl ⟨hleft, hstops, runBody_of_stepBody_stops hleft hstops⟩⟩

theorem runBody_runFrame {s t : State} (hp : s.phase ≠ .error) (h : (runBody s).outcome = .next t) : s.RunFrame t := by
  obtain ⟨r, ⟨hframe, hr⟩, ⟨-, -, e⟩ | ⟨-, e⟩⟩ := runBody_cases (fun r => s.RunFrame r ∧ r.phase ≠ .error)
    (fun r u hr _ hu => ⟨hr.1.trans hr.2 (stepBody_runFrame hr.2 (by rw [hu]; rfl)), by rw [(stepBody_eq_done hu).1]; decide⟩)
    ⟨State.RunFrame.refl s, hp⟩ <;> rw [e] at h
  · exact hframe.trans hr (stepBody_runFrame hr h)
  · exact hframe.trans hr (finishBody_runFrame hr h)

/-! ### Everything a command can answer -/

/-- STEP, RUN or FINISH where R180 lets it run, with its body. -/
inductive State.RunsBody (s : State) : Instr → Body → Prop
  | step : stepLegality s = .runs → s.RunsBody .step (stepBody s)
  | run : runLegality s = .runs → s.RunsBody .run (runBody s)
  | finish : finishLegality s = .runs → s.RunsBody .finish (finishBody s)

theorem State.RunsBody.phase {s : State} {i : Instr} {b : Body} (h : s.RunsBody i b) : s.phase = .planned ∨ s.phase = .running := by
  cases h with
  | step h => exact ((stepLegality_runs s).1 h).imp_right And.left
  | run h => exact (runLegality_runs s).1 h
  | finish h => exact .inr ((finishLegality_runs s).1 h).1

theorem State.RunsBody.runFrame {s t : State} {i : Instr} {b : Body} (h : s.RunsBody i b) (ht : b.outcome = .next t) : s.RunFrame t := by
  have hp : s.phase ≠ .error := by rcases h.phase with e | e <;> rw [e] <;> decide
  cases h with
  | step _ => exact stepBody_runFrame hp ht
  | run _ => exact runBody_runFrame hp ht
  | finish _ => exact finishBody_runFrame hp ht

/-- The next states of a command (R180, R194, R207). -/
inductive CommandEffect (s : State) : Instr → State → Prop
  | cleared : CommandEffect s .clear s.cleared
  | ignored {i : Instr} : s.phase = .error → CommandEffect s i s
  | failed {i : Instr} {c : ErrCode} : s.phase ≠ .error → c ∈ fatalCodes ∧ c ≠ .noError → CommandEffect s i (s.sequencerError c)
  | planned {v : PlanValues} : s.phase = .idle → planChecks s.params s.cfg = .ok v → CommandEffect s .plan (s.planned v.toRegs)
  | assembled {i : Instr} {b : Body} {t : State} : s.RunsBody i b → b.outcome = .next t → CommandEffect s i t
  | unit {i : Instr} {t : State} : i.isUnit = true → UnitEffect s t → CommandEffect s i t

theorem mem_fatalCodes_of_planChecks {p : Params} {c : CfgRegs} {e : ErrCode} (h : planChecks p c = .error e) :
    e ∈ fatalCodes ∧ e ≠ .noError := by
  unfold planChecks at h
  repeat' split at h
  case isFalse.isFalse.isFalse.isFalse.isFalse.isFalse.isFalse.isFalse => cases h
  all_goals obtain rfl := Except.error.inj h; decide

theorem sequencerCommand_effect {i : Instr} {l : Legality} {body : State → Body} {s t : State}
    (hignored : l = .ignored ↔ s.phase = .error) (hruns : l = .runs → (body s).outcome = .next t → CommandEffect s i t)
    (h : sequencerCommand l body s = .next t) : CommandEffect s i t := by
  rcases sequencerCommand_eq_next.1 h with ⟨hl, hbody⟩ | ⟨rfl, rfl⟩ | ⟨rfl, rfl⟩
  · exact hruns hl hbody
  · have hp : s.phase ≠ .error := mt hignored.2 (by decide)
    rw [State.illegalCommand_of_ne_error hp]
    exact .failed hp (by decide)
  · exact .ignored (hignored.1 rfl)

theorem exec_effect {i : Instr} {s t : State} (h : exec i s = .next t) : CommandEffect s i t := by
  obtain ⟨hplan, hstep, hrun, hfinish⟩ := legality_ignored s
  cases i with
  | clear => exact Host.Outcome.next.inj h ▸ .cleared
  | plan =>
    refine sequencerCommand_effect hplan (fun hl hbody => ?_) h
    have hp := (planLegality_runs s).1 hl
    rcases planBody_cases s with ⟨c, hc, e⟩ | ⟨v, hv, e⟩ <;> rw [e] at hbody <;> obtain rfl := Host.Outcome.next.inj hbody
    · exact .failed (by rw [hp]; decide) (mem_fatalCodes_of_planChecks hc)
    · exact .planned hp hv
  | step => exact sequencerCommand_effect hstep (fun hl => .assembled (.step hl)) h
  | run => exact sequencerCommand_effect hrun (fun hl => .assembled (.run hl)) h
  | finish => exact sequencerCommand_effect hfinish (fun hl => .assembled (.finish hl)) h
  | crc32 | oranBuild | ecpriBuild | ethBuild => exact .unit rfl (exec_unit_effect rfl h)

/-! ### Everything a host event can do -/

/-- The next states of a host event (R20, R28, R39, R40, R60, R72, R230). -/
inductive EventEffect (s : State) : HostEvent → State → Prop
  | command {i : Instr} {t : State} : CommandEffect s i t → EventEffect s (.writeReg 0x01 (encode i)) t
  | illegalWord {w : Word} : EventEffect s (.writeReg 0x01 w) s.illegalCommand
  | cfgWritten {i : Fin 64} {v : Word} {c : CfgRegs} : s.phase = .idle → EventEffect s (.writeReg i v) { s with cfg := c }
  | argWritten {i : Fin 64} {v : Word} {a : ArgRegs} : EventEffect s (.writeReg i v) { s with arg := a }
  | poolWritten {a : Nat} {b : Octet} : s.phase = .idle → a < s.params.poolCap →
      EventEffect s (.writeOctet .pool a b) { s with pool := Mem.writeRange s.pool a [b] }
  | scrWritten {a : Nat} {b : Octet} : a < s.params.scrCap →
      EventEffect s (.writeOctet .scr a b) { s with scr := Mem.writeRange s.scr a [b] }
  | locked {e : HostEvent} : s.phase ≠ .idle → EventEffect s e s.lockSet
  | nothing {e : HostEvent} : EventEffect s e s
  | answered {e : HostEvent} {x : HostAnswer} : EventEffect s e (s.answer x)
  | reset : EventEffect s .hardwareReset s.hardwareReset

theorem indexWrite_effect {i : Fin 64} {v : Word} {s t : State} (h : indexWrite i v s = .next t) : EventEffect s (.writeReg i v) t := by
  rcases indexWrite_cases i v s with ⟨rfl, e⟩ | ⟨-, r, -, e⟩ | ⟨-, -, e⟩ <;> rw [e] at h
  · rcases issueCommand_cases v s with ⟨i, hdecode, e⟩ | ⟨-, -, e⟩ <;> rw [e] at h
    · rw [eq_encode_of_decode hdecode]
      exact .command (exec_effect h)
    · exact Host.Outcome.next.inj h ▸ .illegalWord
  · obtain rfl := Host.Outcome.next.inj h
    rcases s.regWrite_cases v r with ⟨c, hp, e⟩ | ⟨hp, e⟩ | ⟨a, e⟩ | e <;> rw [e]
    · exact .cfgWritten hp
    · exact .locked hp
    · exact .argWritten
    · exact .nothing
  · exact Host.Outcome.next.inj h ▸ .nothing

theorem perform_effect {e : HostEvent} {s t : State} (h : perform e s = .next t) : EventEffect s e t := by
  cases e with
  | writeReg i v => exact indexWrite_effect h
  | readReg i => exact Host.Outcome.next.inj h ▸ .answered
  | writeOctet sp a b =>
    obtain ⟨-, rfl⟩ | ⟨ha, ⟨rfl, hp, rfl⟩ | ⟨-, hp, rfl⟩ | ⟨rfl, rfl⟩ | ⟨-, rfl⟩⟩ := octetWrite_eq_next h
    · exact .nothing
    · exact .poolWritten hp ha
    · exact .locked hp
    · exact .scrWritten ha
    · exact .nothing
  | readOctet sp a =>
    obtain ⟨b, -, rfl⟩ := octetRead_eq_next h
    exact .answered
  | partialReg i o n => cases h
  | hardwareReset => exact Host.Outcome.next.inj h ▸ .reset

/-- A step holds the state, or has the effect of the first event on the state whose script has moved on. -/
theorem step_effect {s t : State} (h : step s = .next t) :
    (s.script = [] ∧ t = s) ∨ ∃ e es, s.script = e :: es ∧ EventEffect s.popEvent e t := by
  rcases step_cases s with ⟨hs, e⟩ | ⟨e, es, hs, hstep⟩
  · exact .inl ⟨hs, Host.Outcome.next.inj (h.symm.trans e)⟩
  · exact .inr ⟨e, es, hs, perform_effect (hstep.symm.trans h)⟩

/-! ### The parameters and the locks (R10, R27, R242) -/

theorem CommandEffect.params_eq {i : Instr} {s t : State} (h : CommandEffect s i t) : t.params = s.params := by
  cases h with
  | assembled hb ht => exact (hb.runFrame ht).params_eq
  | unit _ hu => cases hu <;> rfl
  | _ => rfl

theorem EventEffect.params_eq {e : HostEvent} {s t : State} (h : EventEffect s e t) : t.params = s.params := by
  cases h with
  | command hc => exact hc.params_eq
  | illegalWord => exact s.illegalCommand_params
  | _ => rfl

/-- Settles O52: no effect of a command or an event touches the parameters. -/
theorem parametersNeverChange : Obligations.ParametersNeverChange := by
  intro s t h
  rcases step_effect h with ⟨-, rfl⟩ | ⟨e, es, -, he⟩
  · rfl
  · exact he.params_eq

theorem CommandEffect.cfg_pool_eq {i : Instr} {s t : State} (h : CommandEffect s i t) : t.cfg = s.cfg ∧ t.pool = s.pool := by
  cases h with
  | assembled hb ht => exact ⟨(hb.runFrame ht).cfg_eq, (hb.runFrame ht).pool_eq⟩
  | unit _ hu => cases hu <;> exact ⟨rfl, rfl⟩
  | _ => exact ⟨rfl, rfl⟩

/-- Settles O49: a CFG_ write and a POOL write take effect in IDLE only, and no command writes either. -/
theorem configurationFrozenDuringRun : Obligations.ConfigurationFrozenDuringRun := by
  intro s t hp h hreset
  rcases step_effect h with ⟨-, rfl⟩ | ⟨e, es, hs, he⟩
  · exact ⟨rfl, rfl⟩
  cases he with
  | command hc => exact hc.cfg_pool_eq
  | illegalWord => exact ⟨s.popEvent.illegalCommand_cfg, s.popEvent.illegalCommand_pool⟩
  | cfgWritten hidle | poolWritten hidle _ => exact absurd hidle hp
  | reset => exact absurd hs (hreset es)
  | _ => exact ⟨rfl, rfl⟩

theorem CommandEffect.locked_eq {i : Instr} {s t : State} (h : CommandEffect s i t) (hi : i ≠ .clear) : t.locked = s.locked := by
  cases h with
  | cleared => exact absurd rfl hi
  | assembled hb ht => exact (hb.runFrame ht).locked_eq
  | unit _ hu => cases hu <;> rfl
  | _ => rfl

/-- Settles O51: of all events only CLEAR and hardware reset write 0 to LOCKED. -/
theorem lockedIsSticky : Obligations.LockedIsSticky := by
  intro s t hlocked h hclear
  have hkept {u : State} (hu : u.locked = s.locked) (ht : u.locked = false) : False := by
    rw [hu, hlocked] at ht; cases ht
  rcases step_effect h with ⟨-, rfl⟩ | ⟨e, es, hs, he⟩
  · exact (hkept rfl hclear).elim
  cases he with
  | @command i _ hc =>
    by_cases hi : i = .clear
    · subst hi
      obtain rfl := Host.Outcome.next.inj (h.symm.trans (step_of_clear hs))
      exact ⟨rfl, .inl ⟨es, hs⟩⟩
    · exact (hkept (hc.locked_eq hi) hclear).elim
  | illegalWord => exact (hkept s.popEvent.illegalCommand_locked hclear).elim
  | locked _ => cases hclear
  | reset => exact ⟨rfl, .inr ⟨es, hs⟩⟩
  | _ => exact (hkept rfl hclear).elim

/-! ### ERR, and the run's state in phase ERROR (R25, R208) -/

/-- Settles O47: in ERROR a sequencer command is ignored, a unit command keeps to its own state, and the writes that could change the run are
locked. -/
theorem errorPhaseKeepsFirstError : Obligations.ErrorPhaseKeepsFirstError := by
  intro s t hp h ht
  have hidle : s.popEvent.phase ≠ .idle := by rw [State.popEvent_phase, hp]; decide
  rcases step_effect h with ⟨-, rfl⟩ | ⟨e, es, -, he⟩
  · exact ⟨rfl, rfl, rfl, rfl, rfl, rfl, rfl, rfl, rfl⟩
  cases he with
  | command hc =>
    cases hc with
    | cleared => cases ht
    | failed hne _ => exact absurd hp hne
    | planned hplan _ => exact absurd hplan hidle
    | assembled hb _ => rcases hb.phase with e | e <;> exact absurd (hp.symm.trans e) (by decide)
    | unit _ hu => cases hu <;> exact ⟨rfl, rfl, rfl, rfl, rfl, rfl, rfl, rfl, rfl⟩
    | ignored _ => exact ⟨rfl, rfl, rfl, rfl, rfl, rfl, rfl, rfl, rfl⟩
  | illegalWord =>
    rw [State.illegalCommand_of_error (s := s.popEvent) hp]
    exact ⟨rfl, rfl, rfl, rfl, rfl, rfl, rfl, rfl, rfl⟩
  | cfgWritten hcfg | poolWritten hcfg _ => exact absurd hcfg hidle
  | reset => cases ht
  | _ => exact ⟨rfl, rfl, rfl, rfl, rfl, rfl, rfl, rfl, rfl⟩

theorem CommandEffect.err_cases {i : Instr} {s t : State} (h : CommandEffect s i t) :
    t.err = s.err ∨ (s.phase ≠ .error ∧ t.phase = .error) ∨ (t.phase = .idle ∧ t.err = .noError) := by
  cases h with
  | cleared => exact .inr (.inr ⟨rfl, rfl⟩)
  | failed hp _ => exact .inr (.inl ⟨hp, rfl⟩)
  | assembled hb ht =>
    have hp : s.phase ≠ .error := by rcases hb.phase with e | e <;> rw [e] <;> decide
    exact (hb.runFrame ht).err.imp_right fun he => .inl ⟨hp, he⟩
  | unit _ hu => cases hu <;> exact .inl rfl
  | _ => exact .inl rfl

/-- Settles O48: ERR is written on entry to ERROR, by CLEAR and by hardware reset. -/
theorem errWrittenOnlyOnEntryToError : Obligations.ErrWrittenOnlyOnEntryToError := by
  intro s t h hne
  rcases step_effect h with ⟨-, rfl⟩ | ⟨e, es, -, he⟩
  · exact absurd rfl hne
  cases he with
  | command hc => exact hc.err_cases.resolve_left hne
  | illegalWord =>
    refine .inl ⟨fun hp => ?_, s.popEvent.illegalCommand_phase⟩
    rw [State.illegalCommand_of_error (s := s.popEvent) hp] at hne
    exact hne rfl
  | reset => exact .inr ⟨rfl, rfl⟩
  | _ => exact absurd rfl hne

/-! ### `packet_no` (R44) -/

theorem CommandEffect.packetNo_cases {i : Instr} {s t : State} (h : CommandEffect s i t) :
    t.packetNo = s.packetNo ∨ t.packetNo = 0 ∨ i = .step ∨ i = .run := by
  cases h with
  | cleared | planned _ _ => exact .inr (.inl rfl)
  | assembled hb ht =>
    cases hb with
    | step _ => exact .inr (.inr (.inl rfl))
    | run _ => exact .inr (.inr (.inr rfl))
    | finish _ => exact .inl (finishBody_packetNo ht)
  | unit _ hu => cases hu <;> exact .inl rfl
  | _ => exact .inl rfl

/-- Settles O50: STEP's body counts the packet it emits, and of the other commands only RUN, PLAN and CLEAR write `packet_no`. -/
theorem onlyStepAndRunAdvancePacketNo : Obligations.OnlyStepAndRunAdvancePacketNo := by
  refine ⟨fun s t h => ?_, fun s t h hne => ?_⟩
  · rcases sequencerCommand_eq_next.1 h with ⟨-, hbody⟩ | ⟨-, rfl⟩ | ⟨-, rfl⟩
    · rcases stepBody_cases s with ⟨f, -, e⟩ | ⟨iq, -, ⟨c, -, e⟩ | ⟨fr, -, e⟩⟩ <;> rw [e] at hbody
      · cases hbody
      · obtain rfl := Host.Outcome.next.inj hbody
        exact .inl (s.sliced_packetNo iq)
      · obtain rfl := Host.Outcome.next.inj hbody
        exact .inr ⟨by rw [State.frameEmitted_packetNo, State.sliced_packetNo], rfl⟩
    · exact .inl s.illegalCommand_packetNo
    · exact .inl rfl
  · rcases step_effect h with ⟨-, rfl⟩ | ⟨e, es, hs, he⟩
    · exact absurd rfl hne
    cases he with
    | command hc =>
      rcases hc.packetNo_cases with e | e | rfl | rfl
      · exact absurd e hne
      · exact .inl e
      · exact .inr ⟨es, .inl hs⟩
      · exact .inr ⟨es, .inr hs⟩
    | illegalWord => exact absurd s.popEvent.illegalCommand_packetNo hne
    | reset => exact .inl rfl
    | _ => exact absurd rfl hne

/-! ### The canonical form of the spaces (R64 to R66) -/

theorem State.memoriesWf_iff (s : State) :
    s.memoriesWf = true ↔
      Mem.wf s.params.poolCap s.pool = true ∧ Mem.wf s.params.scrCap s.scr = true ∧ Mem.wf s.params.outCap s.out = true := by
  simp only [State.memoriesWf, Bool.and_eq_true, and_assoc]

theorem CommandEffect.memoriesWf {i : Instr} {s t : State} (h : CommandEffect s i t) (hwf : s.memoriesWf = true) : t.memoriesWf = true := by
  obtain ⟨hpool, hscr, hout⟩ := s.memoriesWf_iff.1 hwf
  cases h with
  | assembled hb ht =>
    have hframe := hb.runFrame ht
    rw [State.memoriesWf_iff, hframe.params_eq, hframe.pool_eq, hframe.scr_eq]
    exact ⟨hpool, hscr, hframe.out_wf hout⟩
  | unit _ hu =>
    cases hu with
    | failed _ => exact hwf
    | wrote hm => exact (State.memoriesWf_iff _).2 ⟨hpool, hm hscr, hout⟩
  | _ => exact hwf

theorem EventEffect.memoriesWf {e : HostEvent} {s t : State} (h : EventEffect s e t) (hwf : s.memoriesWf = true) : t.memoriesWf = true := by
  obtain ⟨hpool, hscr, hout⟩ := s.memoriesWf_iff.1 hwf
  cases h with
  | command hc => exact hc.memoriesWf hwf
  | illegalWord =>
    rw [State.memoriesWf_iff, s.illegalCommand_params, s.illegalCommand_pool, s.illegalCommand_scr, s.illegalCommand_out]
    exact ⟨hpool, hscr, hout⟩
  | poolWritten _ ha => exact (State.memoriesWf_iff _).2 ⟨Mem.wf_writeRange hpool (.inl ha), hscr, hout⟩
  | scrWritten ha => exact (State.memoriesWf_iff _).2 ⟨hpool, Mem.wf_writeRange hscr (.inl ha), hout⟩
  | reset => exact (State.memoriesWf_iff _).2 ⟨Mem.wf_nil _, Mem.wf_nil _, Mem.wf_nil _⟩
  | _ => exact hwf

/-- Settles O54: every write inside a space keeps its form, and reset empties the spaces. -/
theorem memoriesStayCanonical : Obligations.MemoriesStayCanonical := by
  intro s t hwf h
  rcases step_effect h with ⟨-, rfl⟩ | ⟨e, es, -, he⟩
  · exact hwf
  · exact he.memoriesWf hwf

/-! ### Sequencer commands and the unit commands' state (R40, R63) -/

/-- A function of the states a body ends in. -/
def Body.map (f : State → State) : Body → Body
  | .done s => .done (f s)
  | .raised c s => .raised c (f s)
  | .faulted x => .faulted x

section
variable (a : ArgRegs) (m : Mem) (c : BitVec 32) (l : Word)

theorem Body.outcome_map_withUnitState (b : Body) :
    (b.map (State.withUnitState a m c l)).outcome = mapNext (State.withUnitState a m c l) b.outcome := by
  cases b <;> rfl

theorem State.illegalCommand_withUnitState (s : State) :
    (s.withUnitState a m c l).illegalCommand = s.illegalCommand.withUnitState a m c l := by
  by_cases hp : s.phase = .error
  · rw [State.illegalCommand_of_error hp, State.illegalCommand_of_error (s := s.withUnitState a m c l) hp]
  · rw [State.illegalCommand_of_ne_error hp, State.illegalCommand_of_ne_error (s := s.withUnitState a m c l) hp]
    rfl

theorem planBody_withUnitState (s : State) : planBody (s.withUnitState a m c l) = (planBody s).map (State.withUnitState a m c l) := by
  have hchecks : planChecks (s.withUnitState a m c l).params (s.withUnitState a m c l).cfg = planChecks s.params s.cfg := rfl
  unfold planBody
  rw [hchecks]
  cases planChecks s.params s.cfg <;> rfl

theorem State.sliced_withUnitState (iq : List Octet) (s : State) :
    (s.withUnitState a m c l).sliced iq = (s.sliced iq).withUnitState a m c l := by
  have hids : (s.withUnitState a m c l).advanced.ids = s.advanced.ids := by rw [State.advanced_ids, State.advanced_ids]; rfl
  rw [State.sliced_eq, State.sliced_eq, hids]; rfl

theorem stepBody_withUnitState (s : State) : stepBody (s.withUnitState a m c l) = (stepBody s).map (State.withUnitState a m c l) := by
  have hslice : (s.withUnitState a m c l).iqSlice s.packetNo.toNat = s.iqSlice s.packetNo.toNat :=
    State.poolOctets_congr (s := s) (t := s.withUnitState a m c l) rfl rfl rfl rfl _ _
  rcases stepBody_cases s with ⟨f, hf, e⟩ | ⟨iq, hiq, ⟨e, he, hbody⟩ | ⟨fr, hfr, hbody⟩⟩
  · rw [e, stepBody_of_slice_error (hslice.trans hf)]; rfl
  · rw [hbody, stepBody_of_error (hslice.trans hiq) (by rw [State.sliced_withUnitState]; exact he), State.sliced_withUnitState]; rfl
  · rw [hbody, stepBody_of_frame (hslice.trans hiq) (by rw [State.sliced_withUnitState]; exact hfr), State.sliced_withUnitState]; rfl

theorem finishBody_withUnitState (s : State) :
    finishBody (s.withUnitState a m c l) = (finishBody s).map (State.withUnitState a m c l) := by
  unfold finishBody
  rw [apply_ite (Body.map (State.withUnitState a m c l))]
  rfl

theorem runLoop_withUnitState (n : Nat) (s : State) :
    runLoop n (s.withUnitState a m c l) = (runLoop n s).map (State.withUnitState a m c l) := by
  induction n generalizing s with
  | zero => exact finishBody_withUnitState a m c l s
  | succ n ih =>
    rw [runLoop, runLoop, stepBody_withUnitState]
    cases stepBody s with
    | done t => exact ih t
    | raised e t => rfl
    | faulted f => rfl

theorem sequencerCommand_withUnitState {lg : Legality} {body : State → Body} {s : State}
    (h : body (s.withUnitState a m c l) = (body s).map (State.withUnitState a m c l)) :
    sequencerCommand lg body (s.withUnitState a m c l) = mapNext (State.withUnitState a m c l) (sequencerCommand lg body s) := by
  cases lg with
  | runs => rw [sequencerCommand, h, Body.outcome_map_withUnitState]; rfl
  | illegal => rw [sequencerCommand, State.illegalCommand_withUnitState]; rfl
  | ignored => rfl

end

/-- Settles O53: each body commutes with the replacement, and the legality does not read what is replaced. -/
theorem sequencerIgnoresUnitState : Obligations.SequencerIgnoresUnitState := by
  intro i s a m c l hi
  cases i with
  | clear => rfl
  | plan => exact sequencerCommand_withUnitState a m c l (planBody_withUnitState a m c l s)
  | step => exact sequencerCommand_withUnitState a m c l (stepBody_withUnitState a m c l s)
  | run => exact sequencerCommand_withUnitState a m c l (runLoop_withUnitState a m c l _ s)
  | finish => exact sequencerCommand_withUnitState a m c l (finishBody_withUnitState a m c l s)
  | crc32 | oranBuild | ecpriBuild | ethBuild => cases hi

end Sys2Proof.Machine
end

section
/-! PROOFS. The invariant of the machine and the stream (R24 to R26, R42 to R46, R185, R186, R195): what a run in progress keeps from packet to
packet, what FINISH makes of it, and that every other event keeps both. -/

namespace Sys2Proof.Machine

/-! ### The invariant, clause by clause -/

theorem State.invariant_iff (s : State) :
    s.invariant = true ↔ s.memoriesWf = true ∧ s.statusWf = true ∧ s.sequencerWf = true := by
  simp only [State.invariant, Bool.and_eq_true, and_assoc]

theorem State.statusWf_iff (s : State) :
    s.statusWf = true ↔ (s.err = .noError ↔ s.phase ≠ .error) ∧ s.err ∈ fatalCodes ∧ s.lerr ∈ unitCodes := by
  simp only [State.statusWf, Bool.and_eq_true, beq_iff_eq, decide_eq_decide, List.contains_iff_mem, and_assoc]

theorem State.framesCounted_iff (s : State) :
    s.framesCounted = true ↔
      s.packetNo.toNat ≤ s.plan.totalPackets.toNat ∧ s.emitted.toNat = s.packetNo.toNat * s.plan.frameLen.toNat := by
  simp only [State.framesCounted, Bool.and_eq_true, decide_eq_true_eq]

theorem State.runAtStart_iff (s : State) :
    s.runAtStart = true ↔ s.packetNo = 0 ∧ s.emitted = 0 ∧ s.ids = IdCounters.zero ∧ s.resTrailIfg = 0 := by
  simp only [State.runAtStart, Bool.and_eq_true, decide_eq_true_eq, and_assoc]

theorem State.sequencerWf_idle_iff {s : State} (hp : s.phase = .idle) :
    s.sequencerWf = true ↔ s.plan = PlanRegs.zero ∧ s.runAtStart = true := by
  simp only [State.sequencerWf, hp, Bool.and_eq_true, decide_eq_true_eq]

theorem State.sequencerWf_planned_iff {s : State} (hp : s.phase = .planned) :
    s.sequencerWf = true ↔ s.planOk = true ∧ s.runAtStart = true := by
  simp only [State.sequencerWf, hp, Bool.and_eq_true]

theorem State.sequencerWf_running_iff {s : State} (hp : s.phase = .running) :
    s.sequencerWf = true ↔ s.planOk = true ∧ 0 < s.packetNo.toNat ∧ s.framesCounted = true ∧
      s.ids = idsAt s.plan (s.packetNo.toNat - 1) ∧ s.resTrailIfg = 0 := by
  simp only [State.sequencerWf, hp, Bool.and_eq_true, decide_eq_true_eq, and_assoc]

theorem State.sequencerWf_done_iff {s : State} (hp : s.phase = .done) :
    s.sequencerWf = true ↔ s.planOk = true ∧ s.packetNo = s.plan.totalPackets ∧ s.emitted.toNat = s.plan.totalBytes.toNat ∧
      s.ids = idsAt s.plan (s.packetNo.toNat - 1) ∧
      s.packetNo.toNat * s.plan.frameLen.toNat + s.resTrailIfg.toNat = s.plan.totalBytes.toNat := by
  simp only [State.sequencerWf, hp, Bool.and_eq_true, decide_eq_true_eq, and_assoc]

theorem State.sequencerWf_error_iff {s : State} (hp : s.phase = .error) :
    s.sequencerWf = true ↔ (s.plan = PlanRegs.zero ∧ s.runAtStart = true) ∨ (s.planOk = true ∧ (s.framesCounted = true ∨
      (s.packetNo = s.plan.totalPackets ∧ s.emitted.toNat = s.plan.totalBytes.toNat))) := by
  simp only [State.sequencerWf, hp, Bool.and_eq_true, Bool.or_eq_true, decide_eq_true_eq]

theorem State.framesCounted_of_runAtStart {s : State} (h : s.runAtStart = true) : s.framesCounted = true := by
  obtain ⟨hno, hemitted, -⟩ := s.runAtStart_iff.1 h
  rw [State.framesCounted_iff, hno, hemitted]
  exact ⟨Nat.zero_le _, (Nat.zero_mul _).symm⟩

/-! ### The error entry (R205) -/

/-- An error entry keeps what the sequencer's invariant says: ERROR asks no more of the counts than any other phase does. -/
theorem State.sequencerWf_sequencerError {s : State} (h : s.sequencerWf = true) (c : ErrCode) :
    (s.sequencerError c).sequencerWf = true := by
  refine (State.sequencerWf_error_iff (s := s.sequencerError c) rfl).2 ?_
  cases hp : s.phase with
  | idle => exact .inl ((State.sequencerWf_idle_iff hp).1 h)
  | planned =>
    obtain ⟨hplan, hstart⟩ := (State.sequencerWf_planned_iff hp).1 h
    exact .inr ⟨hplan, .inl (State.framesCounted_of_runAtStart hstart)⟩
  | running =>
    obtain ⟨hplan, -, hcounted, -⟩ := (State.sequencerWf_running_iff hp).1 h
    exact .inr ⟨hplan, .inl hcounted⟩
  | done =>
    obtain ⟨hplan, hno, hemitted, -⟩ := (State.sequencerWf_done_iff hp).1 h
    exact .inr ⟨hplan, .inr ⟨hno, hemitted⟩⟩
  | error => exact (State.sequencerWf_error_iff hp).1 h

theorem State.statusWf_sequencerError {s : State} (h : s.statusWf = true) {c : ErrCode} (hc : c ∈ fatalCodes ∧ c ≠ .noError) :
    (s.sequencerError c).statusWf = true := by
  obtain ⟨-, -, hlerr⟩ := s.statusWf_iff.1 h
  exact (State.statusWf_iff _).2 ⟨⟨fun e => absurd e hc.2, fun hne => absurd rfl hne⟩, hc.1, hlerr⟩

/-! ### A run in progress (R44 to R46, R185, R186) -/

/-- PLANNED or RUNNING, with the counts and the identifiers of `packet_no` emitted packets. -/
structure State.InRun (s : State) : Prop where
  plan_ok : s.planOk = true
  phase : (s.phase = .planned ∧ s.packetNo.toNat = 0) ∨ (s.phase = .running ∧ 0 < s.packetNo.toNat)
  no_le : s.packetNo.toNat ≤ s.plan.totalPackets.toNat
  emitted_eq : s.emitted.toNat = s.packetNo.toNat * s.plan.frameLen.toNat
  ids_eq : s.ids = idsAt s.plan (s.packetNo.toNat - 1)
  trail_eq : s.resTrailIfg = 0

theorem idsAt_zero (pl : PlanRegs) : idsAt pl 0 = IdCounters.zero := by
  simp [idsAt, IdCounters.zero]

theorem State.inRun_of_runAtStart {s : State} (hp : s.phase = .planned) (hplan : s.planOk = true) (hstart : s.runAtStart = true) :
    s.InRun := by
  obtain ⟨hno, -, hids, htrail⟩ := s.runAtStart_iff.1 hstart
  obtain ⟨hle, hemitted⟩ := s.framesCounted_iff.1 (State.framesCounted_of_runAtStart hstart)
  have hno' : s.packetNo.toNat = 0 := congrArg BitVec.toNat hno
  exact ⟨hplan, .inl ⟨hp, hno'⟩, hle, hemitted, by rw [hids, hno']; exact (idsAt_zero s.plan).symm, htrail⟩

theorem State.inRun_of_sequencerWf {s : State} (hp : s.phase = .planned ∨ s.phase = .running) (h : s.sequencerWf = true) : s.InRun := by
  rcases hp with hp | hp
  · obtain ⟨hplan, hstart⟩ := (State.sequencerWf_planned_iff hp).1 h
    exact State.inRun_of_runAtStart hp hplan hstart
  · obtain ⟨hplan, hpos, hcounted, hids, htrail⟩ := (State.sequencerWf_running_iff hp).1 h
    obtain ⟨hle, hemitted⟩ := s.framesCounted_iff.1 hcounted
    exact ⟨hplan, .inr ⟨hp, hpos⟩, hle, hemitted, hids, htrail⟩

theorem State.InRun.phase_ne_error {s : State} (h : s.InRun) : s.phase ≠ .error := by
  rcases h.phase with ⟨e, -⟩ | ⟨e, -⟩ <;> rw [e] <;> decide

theorem State.planOk_congr {s t : State} (hp : t.params = s.params) (hc : t.cfg = s.cfg) (hl : t.plan = s.plan) : t.planOk = s.planOk := by
  simp only [State.planOk, hp, hc, hl]

/-- An error in a run in progress leaves the counts as they were, the advance and the slice apart (R205). -/
theorem State.InRun.sequencerWf_error {s t : State} (h : s.InRun) (hframe : s.RunFrame t) (hp : t.phase = .error)
    (hno : t.packetNo = s.packetNo) (hemitted : t.emitted = s.emitted) : t.sequencerWf = true := by
  refine (State.sequencerWf_error_iff hp).2 (.inr ⟨?_, .inl ?_⟩)
  · rw [State.planOk_congr hframe.params_eq hframe.cfg_eq hframe.plan_eq, h.plan_ok]
  · rw [State.framesCounted_iff, hno, hemitted, hframe.plan_eq]
    exact ⟨h.no_le, h.emitted_eq⟩

/-- STEP advances the identifiers of packet p − 1 to those of packet p (R184 to R186). -/
theorem State.InRun.advanced_ids {s : State} (h : s.InRun) : s.advanced.ids = idsAt s.plan s.packetNo.toNat := by
  have hf := planFacts h.plan_ok
  rw [State.advanced_ids, h.ids_eq]
  split
  next hzero => rw [hzero]
  next hne =>
    obtain ⟨p, hp⟩ := Nat.exists_eq_add_one_of_ne_zero hne
    rw [hp, Nat.add_sub_cancel, ← idsAfter_eq_idsAt hf, ← idsAfter_eq_idsAt hf]; rfl

/-- Every frame that STEP emits has the planned length (R172, R189). -/
theorem State.InRun.frame_length {s : State} (h : s.InRun) {iq fr : List Octet} (hslice : s.iqSlice s.packetNo.toNat = .ok iq)
    (hbuild : (s.sliced iq).buildPacket iq = .ok fr) : fr.length = s.plan.frameLen.toNat := by
  rcases (s.sliced iq).buildPacket_cases iq with ⟨f, e, -, hlen, -⟩ | ⟨e, -⟩ | ⟨e, -⟩ | ⟨e, -⟩ <;> rw [hbuild] at e
  · obtain rfl := Except.ok.inj e
    rw [hlen, State.iqSlice_length hslice, State.sliced_cfg, (planFacts h.plan_ok).frameLen_eq]
  all_goals cases e

/-- Of the builders' errors, EcpriPayloadTooLarge cannot reach the sequencer: a slice has at most 28 · 273 octets (R141). -/
theorem State.InRun.mem_fatalCodes {s : State} (h : s.InRun) {iq : List Octet} {c : ErrCode} (hslice : s.iqSlice s.packetNo.toNat = .ok iq)
    (hbuild : (s.sliced iq).buildPacket iq = .error c) : c ∈ fatalCodes ∧ c ≠ .noError := by
  have hf := planFacts h.plan_ok
  have hlen := State.iqSlice_length hslice
  have hiq := hf.iq_eq
  have hnrb := hf.nrb_le
  have hmax := hf.max_le
  rcases (s.sliced iq).buildPacket_cases iq with ⟨f, e, -⟩ | ⟨e, -⟩ | ⟨-, -, hbig⟩ | ⟨e, -⟩
  · rw [hbuild] at e; cases e
  · rw [hbuild] at e; obtain rfl := Except.error.inj e; decide
  · omega
  · rw [hbuild] at e; obtain rfl := Except.error.inj e; decide

theorem mul_lt_two_pow_128 {p n : Word} : p.toNat * n.toNat < 2 ^ 128 :=
  calc p.toNat * n.toNat < 2 ^ 64 * 2 ^ 64 := Nat.mul_lt_mul'' p.isLt n.isLt
    _ = 2 ^ 128 := by decide

/-- A run in progress is in progress one packet later (R190). -/
theorem State.InRun.frameEmitted {s : State} (h : s.InRun) (hleft : s.packetNo.toNat < s.plan.totalPackets.toNat) {iq fr : List Octet}
    (hlen : fr.length = s.plan.frameLen.toNat) : ((s.sliced iq).frameEmitted fr).InRun := by
  have hT := s.plan.totalPackets.isLt
  have hno : (s.packetNo + 1).toNat = s.packetNo.toNat + 1 := by bv_omega
  have hfits : (s.packetNo.toNat + 1) * s.plan.frameLen.toNat < 2 ^ 128 := hno ▸ mul_lt_two_pow_128
  constructor
  case plan_ok => rw [State.planOk_congr (s := s), h.plan_ok] <;> simp
  case phase => exact .inr ⟨rfl, by simp only [State.frameEmitted_packetNo, State.sliced_packetNo, hno]; omega⟩
  case no_le => simp only [State.frameEmitted_packetNo, State.frameEmitted_plan, State.sliced_packetNo, State.sliced_plan, hno]; omega
  case emitted_eq =>
    simp only [State.frameEmitted_emitted, State.frameEmitted_packetNo, State.frameEmitted_plan, State.sliced_emitted,
      State.sliced_packetNo, State.sliced_plan, hno]
    rw [h.emitted_eq, hlen, ← Nat.succ_mul, BitVec.toNat_ofNat, Nat.mod_eq_of_lt hfits]
  case ids_eq =>
    simp only [State.frameEmitted_ids, State.frameEmitted_plan, State.frameEmitted_packetNo, State.sliced_ids, State.sliced_plan,
      State.sliced_packetNo, hno, Nat.add_sub_cancel, h.advanced_ids]
  case trail_eq => simp only [State.frameEmitted_resTrailIfg, State.sliced_resTrailIfg, h.trail_eq]

theorem State.InRun.stepBody_done {s t : State} (h : s.InRun) (hleft : s.packetNo.toNat < s.plan.totalPackets.toNat)
    (hs : stepBody s = .done t) : t.InRun := by
  rcases stepBody_cases s with ⟨f, -, e⟩ | ⟨iq, hslice, ⟨c, -, e⟩ | ⟨fr, hbuild, e⟩⟩ <;> rw [hs] at e
  · cases e
  · cases e
  · obtain rfl := Body.done.inj e
    exact h.frameEmitted hleft (h.frame_length hslice hbuild)

theorem State.InRun.sequencerWf_running {s : State} (h : s.InRun) (hp : s.phase = .running) : s.sequencerWf = true := by
  rcases h.phase with ⟨e, -⟩ | ⟨-, hpos⟩
  · rw [hp] at e; cases e
  · exact (State.sequencerWf_running_iff hp).2 ⟨h.plan_ok, hpos, s.framesCounted_iff.2 ⟨h.no_le, h.emitted_eq⟩, h.ids_eq, h.trail_eq⟩

/-- FINISH within the budget leaves what DONE asks for (R192, R195). -/
theorem State.InRun.sequencerWf_finished {s : State} (h : s.InRun) (hno : s.packetNo = s.plan.totalPackets)
    (hle : s.emitted.toNat ≤ s.plan.totalBytes.toNat) :
    (s.finished (s.plan.totalBytes.toNat - s.emitted.toNat)).sequencerWf = true := by
  have hB := s.plan.totalBytes.isLt
  refine (State.sequencerWf_done_iff rfl).2 ⟨?_, hno, ?_, h.ids_eq, ?_⟩
  · exact (State.planOk_congr rfl rfl rfl).trans h.plan_ok
  · rw [State.finished_emitted_eq hle, BitVec.toNat_ofNat, State.finished_plan]
    omega
  · simp only [State.finished_packetNo, State.finished_plan, State.finished_resTrailIfg, BitVec.toNat_ofNat]
    rw [← h.emitted_eq]
    omega

/-! ### The invariant after STEP, RUN and FINISH -/

theorem State.RunFrame.statusWf {s t : State} (h : s.RunFrame t) (hs : s.statusWf = true) (hp : s.phase ≠ .error) (hp' : t.phase ≠ .error) :
    t.statusWf = true := by
  obtain ⟨herr, hfatal, hlerr⟩ := s.statusWf_iff.1 hs
  have hkept := h.err.resolve_right hp'
  rw [State.statusWf_iff, hkept, h.lerr_eq]
  exact ⟨⟨fun _ => hp', fun _ => herr.2 hp⟩, hfatal, hlerr⟩

theorem State.InRun.stepBody_invariant {s t : State} (h : s.InRun) (hstatus : s.statusWf = true)
    (hleft : s.packetNo.toNat < s.plan.totalPackets.toNat) (ht : (stepBody s).outcome = .next t) :
    t.statusWf = true ∧ t.sequencerWf = true := by
  have hframe := stepBody_runFrame h.phase_ne_error ht
  rcases stepBody_cases s with ⟨f, -, e⟩ | ⟨iq, hslice, ⟨c, hbuild, e⟩ | ⟨fr, hbuild, e⟩⟩ <;> rw [e] at ht
  · cases ht
  · obtain rfl := Host.Outcome.next.inj ht
    have hsliced := (State.RunFrame.sliced s iq).statusWf hstatus h.phase_ne_error (by rw [State.sliced_phase]; exact h.phase_ne_error)
    exact ⟨State.statusWf_sequencerError hsliced (h.mem_fatalCodes hslice hbuild),
      h.sequencerWf_error hframe rfl (s.sliced_packetNo iq) (s.sliced_emitted iq)⟩
  · obtain rfl := Host.Outcome.next.inj ht
    exact ⟨hframe.statusWf hstatus h.phase_ne_error (by simp),
      (h.frameEmitted hleft (h.frame_length hslice hbuild)).sequencerWf_running rfl⟩

theorem State.InRun.finishBody_invariant {s t : State} (h : s.InRun) (hstatus : s.statusWf = true) (hno : s.packetNo = s.plan.totalPackets)
    (ht : (finishBody s).outcome = .next t) : t.statusWf = true ∧ t.sequencerWf = true := by
  have hframe := finishBody_runFrame h.phase_ne_error ht
  rcases finishBody_cases s with ⟨-, e⟩ | ⟨hle, e⟩ <;> rw [e] at ht <;> obtain rfl := Host.Outcome.next.inj ht
  · exact ⟨State.statusWf_sequencerError hstatus (by decide), h.sequencerWf_error hframe rfl rfl rfl⟩
  · exact ⟨hframe.statusWf hstatus h.phase_ne_error (by simp), h.sequencerWf_finished hno hle⟩

theorem State.InRun.packetNo_eq {s : State} (h : s.InRun) (hle : s.plan.totalPackets.toNat ≤ s.packetNo.toNat) :
    s.packetNo = s.plan.totalPackets := BitVec.eq_of_toNat_eq (Nat.le_antisymm h.no_le hle)

theorem State.InRun.runBody_invariant {s t : State} (h : s.InRun) (hstatus : s.statusWf = true) (ht : (runBody s).outcome = .next t) :
    t.statusWf = true ∧ t.sequencerWf = true := by
  have hkeep (r u : State) (hr : r.InRun ∧ r.statusWf = true) (hleft : r.packetNo.toNat < r.plan.totalPackets.toNat)
      (hu : stepBody r = .done u) : u.InRun ∧ u.statusWf = true :=
    ⟨hr.1.stepBody_done hleft hu, (hr.1.stepBody_invariant hr.2 hleft (by rw [hu]; rfl)).1⟩
  obtain ⟨r, ⟨hr, hrstatus⟩, ⟨hleft, -, e⟩ | ⟨hnone, e⟩⟩ := runBody_cases (fun r => r.InRun ∧ r.statusWf = true) hkeep ⟨h, hstatus⟩ <;>
    rw [e] at ht
  · exact hr.stepBody_invariant hrstatus hleft ht
  · exact hr.finishBody_invariant hrstatus (hr.packetNo_eq hnone) ht

/-- A planned run has a packet to emit (R163 to R166). -/
theorem State.InRun.packets_left_of_planned {s : State} (h : s.InRun) (hp : s.phase = .planned) :
    s.packetNo.toNat < s.plan.totalPackets.toNat := by
  have hf := planFacts h.plan_ok
  have hpos : 0 < s.plan.totalPackets.toNat := by simpa using hf.mul_pktsPerSlot_lt hf.slots_pos
  rcases h.phase with ⟨-, hzero⟩ | ⟨e, -⟩
  · rwa [hzero]
  · rw [hp] at e; cases e

theorem State.InRun.packets_left_of_step {s : State} (h : s.InRun) (hl : stepLegality s = .runs) :
    s.packetNo.toNat < s.plan.totalPackets.toNat := by
  rcases (stepLegality_runs s).1 hl with hp | ⟨-, hleft⟩
  · exact h.packets_left_of_planned hp
  · exact hleft

theorem State.RunsBody.invariant {s t : State} {i : Instr} {b : Body} (hb : s.RunsBody i b) (hstatus : s.statusWf = true)
    (hseq : s.sequencerWf = true) (ht : b.outcome = .next t) : t.statusWf = true ∧ t.sequencerWf = true := by
  have h := State.inRun_of_sequencerWf hb.phase hseq
  cases hb with
  | step hl => exact h.stepBody_invariant hstatus (h.packets_left_of_step hl) ht
  | run _ => exact h.runBody_invariant hstatus ht
  | finish hl => exact h.finishBody_invariant hstatus ((finishLegality_runs s).1 hl).2 ht

/-! ### The invariant after every event -/

theorem CommandEffect.invariant {i : Instr} {s t : State} (h : CommandEffect s i t) (hstatus : s.statusWf = true)
    (hseq : s.sequencerWf = true) : t.statusWf = true ∧ t.sequencerWf = true := by
  obtain ⟨herr, hfatal, hlerr⟩ := s.statusWf_iff.1 hstatus
  cases h with
  | cleared => exact ⟨(State.statusWf_iff _).2 (by simp [fatalCodes, unitCodes]), (State.sequencerWf_idle_iff rfl).2 ⟨rfl, rfl⟩⟩
  | ignored _ => exact ⟨hstatus, hseq⟩
  | failed _ hc => exact ⟨State.statusWf_sequencerError hstatus hc, State.sequencerWf_sequencerError hseq _⟩
  | planned hp hv =>
    have hkept : s.err = .noError := herr.2 (by rw [hp]; decide)
    exact ⟨(State.statusWf_iff _).2 ⟨⟨fun _ => nofun, fun _ => hkept⟩, hfatal, hlerr⟩,
      (State.sequencerWf_planned_iff rfl).2 ⟨(planOk_iff _).2 ⟨_, hv, rfl⟩, rfl⟩⟩
  | assembled hb ht => exact hb.invariant hstatus hseq ht
  | unit _ hu =>
    cases hu with
    | failed hc => exact ⟨(State.statusWf_iff _).2 ⟨herr, hfatal, hc.1⟩, hseq⟩
    | wrote _ => exact ⟨(State.statusWf_iff _).2 ⟨herr, hfatal, (by decide : ErrCode.noError ∈ unitCodes)⟩, hseq⟩

theorem EventEffect.invariant {e : HostEvent} {s t : State} (h : EventEffect s e t) (hstatus : s.statusWf = true)
    (hseq : s.sequencerWf = true) : t.statusWf = true ∧ t.sequencerWf = true := by
  cases h with
  | command hc => exact hc.invariant hstatus hseq
  | illegalWord =>
    by_cases hp : s.phase = .error
    · rw [State.illegalCommand_of_error hp]; exact ⟨hstatus, hseq⟩
    · rw [State.illegalCommand_of_ne_error hp]
      exact ⟨State.statusWf_sequencerError hstatus (by decide), State.sequencerWf_sequencerError hseq _⟩
  | @cfgWritten _ _ c hp => exact ⟨hstatus, (State.sequencerWf_idle_iff (s := { s with cfg := c }) hp).2 ((State.sequencerWf_idle_iff hp).1 hseq)⟩
  | reset => exact ⟨rfl, rfl⟩
  | _ => exact ⟨hstatus, hseq⟩

/-- Settles O55: the spaces by `EventEffect.memoriesWf`, the status and the sequencer by the list of a step's effects. -/
theorem invariantIsInductive : Obligations.InvariantIsInductive := by
  intro s t hinv h
  obtain ⟨hmem, hstatus, hseq⟩ := s.invariant_iff.1 hinv
  rcases step_effect h with ⟨-, rfl⟩ | ⟨e, es, -, he⟩
  · exact hinv
  · exact t.invariant_iff.2 ⟨he.memoriesWf hmem, he.invariant hstatus hseq⟩

/-- Settles O56: reset is in IDLE with nothing counted and every octet unwritten. -/
theorem invariantHoldsAtReset : Obligations.InvariantHoldsAtReset := by
  unfold Obligations.InvariantHoldsAtReset; decide

/-! ### The frames in OUT (R66, R195) -/

/-- Every packet counted stands in OUT at its place, as far as OUT reaches: what `streamWf` says in RUNNING and DONE. -/
def State.FramesOut (s : State) : Prop :=
  ∀ p, p < s.packetNo.toNat → ∃ fr, s.packetFrame p fr ∧ fr.length = s.plan.frameLen.toNat ∧
    ∀ j, j < fr.length → p * s.plan.frameLen.toNat + j < s.params.outCap →
      Mem.read s.out (p * s.plan.frameLen.toNat + j) = fr[j]?

theorem State.streamWf_iff (s : State) :
    s.streamWf ↔ (s.phase = .running ∨ s.phase = .done → s.FramesOut) ∧
      (s.phase = .done → ∀ x, s.packetNo.toNat * s.plan.frameLen.toNat ≤ x → x < s.plan.totalBytes.toNat →
        Mem.read s.out x = some ifgOctet) := Iff.rfl

/-- The frame of a packet depends on the plan, the configuration and the payload alone (R182, R189). -/
theorem State.packetFrame_congr {s t : State} (hp : t.params = s.params) (hc : t.cfg = s.cfg) (hl : t.plan = s.plan)
    (hm : t.pool = s.pool) {p : Nat} {fr : List Octet} (h : s.packetFrame p fr) : t.packetFrame p fr := by
  obtain ⟨iq, hslice, hbuild⟩ := h
  refine ⟨iq, ?_, ?_⟩
  · rw [State.iqSlice, hl, State.poolOctets_congr hp hc hl hm]; exact hslice
  · simp only [State.buildPacket, State.oranFields, hp, hc, hl] at hbuild ⊢; exact hbuild

/-- Frames stay in place while OUT keeps the octets below the end of the last one. -/
theorem State.FramesOut.frame {s t : State} (h : s.FramesOut) (hp : t.params = s.params) (hc : t.cfg = s.cfg) (hl : t.plan = s.plan)
    (hm : t.pool = s.pool) (hout : ∀ x, x < s.packetNo.toNat * s.plan.frameLen.toNat → Mem.read t.out x = Mem.read s.out x) {p : Nat}
    (hlt : p < s.packetNo.toNat) :
    ∃ fr, t.packetFrame p fr ∧ fr.length = t.plan.frameLen.toNat ∧
      ∀ j, j < fr.length → p * t.plan.frameLen.toNat + j < t.params.outCap →
        Mem.read t.out (p * t.plan.frameLen.toNat + j) = fr[j]? := by
  obtain ⟨fr, hfr, hlen, hread⟩ := h p hlt
  refine ⟨fr, State.packetFrame_congr hp hc hl hm hfr, hl ▸ hlen, fun j hj hcap => ?_⟩
  rw [hl] at hcap ⊢
  rw [hp] at hcap
  have hend : (p + 1) * s.plan.frameLen.toNat ≤ s.packetNo.toNat * s.plan.frameLen.toNat := Nat.mul_le_mul_right _ hlt
  rw [hout _ (by rw [Nat.succ_mul] at hend; omega), hread j hj hcap]

/-- STEP puts the frame of packet p behind the frames before it (R190). -/
theorem State.FramesOut.frameEmitted {s : State} (h : s.FramesOut) (hrun : s.InRun)
    (hleft : s.packetNo.toNat < s.plan.totalPackets.toNat) {iq fr : List Octet} (hslice : s.iqSlice s.packetNo.toNat = .ok iq)
    (hbuild : (s.sliced iq).buildPacket iq = .ok fr) : ((s.sliced iq).frameEmitted fr).FramesOut := by
  have hT := s.plan.totalPackets.isLt
  have hlen := hrun.frame_length hslice hbuild
  have hread (x : Nat) : Mem.read ((s.sliced iq).frameEmitted fr).out x =
      if s.packetNo.toNat * s.plan.frameLen.toNat ≤ x ∧ x < s.packetNo.toNat * s.plan.frameLen.toNat + fr.length ∧ x < s.params.outCap then
        fr[x - s.packetNo.toNat * s.plan.frameLen.toNat]?
      else Mem.read s.out x := by
    rw [State.frameEmitted_out, State.emit_out_read, State.sliced_emitted, State.sliced_params, State.sliced_out, hrun.emitted_eq]
  intro p hlt
  have hlt' : p < s.packetNo.toNat + 1 := by
    rw [State.frameEmitted_packetNo, State.sliced_packetNo] at hlt
    bv_omega
  rcases Nat.lt_succ_iff_lt_or_eq.1 hlt' with hold | rfl
  · refine h.frame (by simp) (by simp) (by simp) (by simp) (fun x hx => ?_) hold
    rw [hread, if_neg (by omega)]
  · refine ⟨fr, State.packetFrame_congr (s := s) (by simp) (by simp) (by simp) (by simp) ⟨iq, hslice, ?_⟩, by simpa using hlen,
      fun j hj hcap => ?_⟩
    · rw [← hbuild, State.sliced_eq, hrun.advanced_ids]; rfl
    · simp only [State.frameEmitted_plan, State.frameEmitted_params, State.sliced_plan, State.sliced_params] at hcap ⊢
      rw [hread, if_pos (by omega), Nat.add_sub_cancel_left]

theorem State.FramesOut.stepBody_done {s t : State} (h : s.FramesOut) (hrun : s.InRun)
    (hleft : s.packetNo.toNat < s.plan.totalPackets.toNat) (hs : stepBody s = .done t) : t.FramesOut := by
  rcases stepBody_cases s with ⟨f, -, e⟩ | ⟨iq, hslice, ⟨c, -, e⟩ | ⟨fr, hbuild, e⟩⟩ <;> rw [hs] at e
  · cases e
  · cases e
  · obtain rfl := Body.done.inj e
    exact h.frameEmitted hrun hleft hslice hbuild

/-- FINISH leaves the frames in place and fills OUT behind them with 0x07 up to `total_bytes` (R192, R195). -/
theorem State.FramesOut.finished {s : State} (h : s.FramesOut) (hrun : s.InRun) (hle : s.emitted.toNat ≤ s.plan.totalBytes.toNat) :
    (s.finished (s.plan.totalBytes.toNat - s.emitted.toNat)).streamWf := by
  have hcap := (planFacts hrun.plan_ok).bytes_le
  rw [State.streamWf_iff]
  refine ⟨fun _ p hlt => ?_, fun _ x hlo hhi => ?_⟩
  · refine h.frame (by simp) (by simp) (by simp) (by simp) (fun x hx => ?_) hlt
    rw [State.finished_out_read, if_neg (by rw [hrun.emitted_eq]; omega)]
  · rw [State.finished_packetNo, State.finished_plan, ← hrun.emitted_eq] at hlo
    rw [State.finished_plan] at hhi
    rw [State.finished_out_read, if_pos (by omega)]

/-! ### The stream after every event -/

theorem State.streamWf_of_phase {s : State} (hr : s.phase ≠ .running) (hd : s.phase ≠ .done) : s.streamWf :=
  s.streamWf_iff.2 ⟨fun h => (h.elim hr hd).elim, fun h => (hd h).elim⟩

theorem State.streamWf_congr {s t : State} (h : s.streamWf) (hp : t.params = s.params) (hc : t.cfg = s.cfg) (hl : t.plan = s.plan)
    (hm : t.pool = s.pool) (hphase : t.phase = s.phase) (hno : t.packetNo = s.packetNo) (hout : t.out = s.out) : t.streamWf := by
  obtain ⟨hframes, htrail⟩ := s.streamWf_iff.1 h
  rw [State.streamWf_iff, hphase]
  refine ⟨fun hr p hlt => (hframes hr).frame hp hc hl hm (fun x _ => by rw [hout]) (hno ▸ hlt), fun hd x => ?_⟩
  rw [hno, hl, hout]; exact htrail hd x

/-- In PLANNED no frame has been emitted, and in RUNNING the frames are those of `streamWf`. -/
theorem State.InRun.framesOut {s : State} (h : s.InRun) (hstream : s.streamWf) : s.FramesOut := by
  rcases h.phase with ⟨-, hzero⟩ | ⟨hp, -⟩
  · intro p hlt; omega
  · exact (s.streamWf_iff.1 hstream).1 (.inl hp)

theorem State.streamWf_of_finishBody {s t : State} (hrun : s.InRun) (h : s.FramesOut) (ht : (finishBody s).outcome = .next t) :
    t.streamWf := by
  rcases finishBody_cases s with ⟨-, e⟩ | ⟨hle, e⟩ <;> rw [e] at ht <;> obtain rfl := Host.Outcome.next.inj ht
  · exact State.streamWf_of_phase (by simp) (by simp)
  · exact h.finished hrun hle

theorem State.streamWf_of_stepBody {s t : State} (hrun : s.InRun) (h : s.FramesOut) (hleft : s.packetNo.toNat < s.plan.totalPackets.toNat)
    (ht : (stepBody s).outcome = .next t) : t.streamWf := by
  rcases Body.outcome_eq_next.1 ht with hdone | ⟨c, r, -, rfl⟩
  · refine t.streamWf_iff.2 ⟨fun _ => h.stepBody_done hrun hleft hdone, fun hd => ?_⟩
    rw [(stepBody_eq_done hdone).1] at hd; cases hd
  · exact State.streamWf_of_phase (by simp) (by simp)

theorem State.RunsBody.streamWf {s t : State} {i : Instr} {b : Body} (hb : s.RunsBody i b) (hseq : s.sequencerWf = true)
    (hstream : s.streamWf) (ht : b.outcome = .next t) : t.streamWf := by
  have hrun := State.inRun_of_sequencerWf hb.phase hseq
  have hframes := hrun.framesOut hstream
  cases hb with
  | step hl => exact State.streamWf_of_stepBody hrun hframes (hrun.packets_left_of_step hl) ht
  | run _ =>
    obtain ⟨r, ⟨hr, hrframes⟩, ⟨hleft, -, e⟩ | ⟨-, e⟩⟩ := runBody_cases (fun r => r.InRun ∧ r.FramesOut)
      (fun r u hr hleft hu => ⟨hr.1.stepBody_done hleft hu, hr.2.stepBody_done hr.1 hleft hu⟩) ⟨hrun, hframes⟩ <;> rw [e] at ht
    · exact State.streamWf_of_stepBody hr hrframes hleft ht
    · exact State.streamWf_of_finishBody hr hrframes ht
  | finish _ => exact State.streamWf_of_finishBody hrun hframes ht

theorem CommandEffect.streamWf {i : Instr} {s t : State} (h : CommandEffect s i t) (hseq : s.sequencerWf = true) (hstream : s.streamWf) :
    t.streamWf := by
  cases h with
  | cleared | failed _ _ | planned _ _ => exact State.streamWf_of_phase nofun nofun
  | ignored _ => exact hstream
  | assembled hb ht => exact hb.streamWf hseq hstream ht
  | unit _ hu => cases hu <;> exact State.streamWf_congr hstream rfl rfl rfl rfl rfl rfl rfl

theorem EventEffect.streamWf {e : HostEvent} {s t : State} (h : EventEffect s e t) (hseq : s.sequencerWf = true) (hstream : s.streamWf) :
    t.streamWf := by
  cases h with
  | command hc => exact hc.streamWf hseq hstream
  | illegalWord => exact State.streamWf_of_phase (by simp) (by simp)
  | cfgWritten hp | poolWritten hp _ => exact State.streamWf_of_phase (by simp [hp]) (by simp [hp])
  | reset => exact State.streamWf_of_phase nofun nofun
  | _ => exact State.streamWf_congr hstream rfl rfl rfl rfl rfl rfl rfl

/-- Settles O57: STEP appends one frame, FINISH the trailing octets, and no other event writes OUT in RUNNING or DONE. -/
theorem streamStaysRight : Obligations.StreamStaysRight := by
  intro s t hinv hstream h
  obtain ⟨-, -, hseq⟩ := s.invariant_iff.1 hinv
  rcases step_effect h with ⟨-, rfl⟩ | ⟨e, es, -, he⟩
  · exact hstream
  · exact he.streamWf hseq (State.streamWf_congr hstream rfl rfl rfl rfl rfl rfl rfl)

/-- Settles O58: reset is in IDLE. -/
theorem streamRightAtReset : Obligations.StreamRightAtReset := State.streamWf_of_phase nofun nofun

/-! ### What the host reads of the stream (R67, R195) -/

theorem State.hostOctet_out_of_read {s : State} {x : Nat} {b : Octet} (hp : s.phase = .running ∨ s.phase = .done)
    (hx : x < s.emitted.toNat) (hcap : x < s.params.outCap) (hread : Mem.read s.out x = some b) : s.hostOctet .out x = .ok b :=
  (State.hostOctet_out_of_readable ((s.outReadable_iff x).2 ⟨hp, hx, hcap⟩)).trans (State.readOctet_of_read hcap hread)

theorem State.hostOctet_pool_congr {s t : State} (hp : t.params = s.params) (hm : t.pool = s.pool) (x : Nat) :
    t.hostOctet .pool x = s.hostOctet .pool x := by
  rw [t.hostOctet_of_ne_out (sp := .pool) (by decide), s.hostOctet_of_ne_out (sp := .pool) (by decide)]
  exact State.readOctet_congr (congrArg Params.poolCap hp) (congrArg (Mem.read · x) hm)

/-- A frame is longer than its 42 octets around the slice and the slice (R172). -/
theorem PlanFacts.slice_fits {s : State} (hf : PlanFacts s) : 42 + s.plan.iqPerPkt.toNat ≤ s.plan.frameLen.toNat := by
  rw [hf.frameLen_eq, frameLen]; omega

/-- In fixed mode the payload octet i of packet p is the pool octet at the cursor p · ipp + i, modulo the pool's length (R182, R183, R195). -/
theorem State.FramesOut.hostOctet_payload {s : State} (h : s.FramesOut) (hplan : s.planOk = true) (hp : s.phase = .running ∨ s.phase = .done)
    (hcount : s.packetNo.toNat * s.plan.frameLen.toNat ≤ s.emitted.toNat) (hfixed : s.cfg.payloadType = 1) {p i : Nat}
    (hlt : p < s.packetNo.toNat) (hi : i < s.plan.iqPerPkt.toNat) (hcap : p * s.plan.frameLen.toNat + 38 + i < s.params.outCap) :
    s.hostOctet .out (p * s.plan.frameLen.toNat + 38 + i) =
      s.hostOctet .pool ((p * s.plan.iqPerPkt.toNat + i) % s.plan.poolLen.toNat) := by
  have hfits := (planFacts hplan).slice_fits
  obtain ⟨fr, ⟨iq, hslice, hbuild⟩, hlen, hread⟩ := h p hlt
  have hiq : i < iq.length := by rw [State.iqSlice_length hslice]; exact hi
  have hend : (p + 1) * s.plan.frameLen.toNat ≤ s.packetNo.toNat * s.plan.frameLen.toNat := Nat.mul_le_mul_right _ hlt
  rw [Nat.succ_mul] at hend
  rw [Nat.add_assoc] at hcap ⊢
  have hout : Mem.read s.out (p * s.plan.frameLen.toNat + (38 + i)) = some iq[i] :=
    (hread (38 + i) (by omega) hcap).trans (State.getElem?_frame_payload hbuild hiq)
  rw [State.hostOctet_out_of_read hp (by omega) hcap hout, s.hostOctet_of_ne_out (sp := .pool) (by decide),
    State.iqSlice_fixed hfixed hslice hiq]

/-- Settles O59: the invariant counts at least the emitted frames in EMITTED, so the host can read the payload octet. -/
theorem payloadIsThePoolSlice : Obligations.PayloadIsThePoolSlice := by
  intro s p i hinv hstream hp hfixed hlt hi hcap
  obtain ⟨-, -, hseq⟩ := s.invariant_iff.1 hinv
  have hframes := (s.streamWf_iff.1 hstream).1 hp
  have hcounts : s.planOk = true ∧ s.packetNo.toNat * s.plan.frameLen.toNat ≤ s.emitted.toNat := by
    rcases hp with hp | hp
    · obtain ⟨hplan, -, hcounted, -⟩ := (State.sequencerWf_running_iff hp).1 hseq
      exact ⟨hplan, (s.framesCounted_iff.1 hcounted).2.ge⟩
    · obtain ⟨hplan, -, hemitted, -, hsum⟩ := (State.sequencerWf_done_iff hp).1 hseq
      exact ⟨hplan, by omega⟩
  exact hframes.hostOctet_payload hcounts.1 hp hcounts.2 hfixed hlt hi hcap

/-! ### A run that succeeds (R173, R195) -/

/-- RUN to DONE is RUN's packets, which leave a run in progress with its frames in OUT, and then FINISH. -/
theorem exists_inRun_finished {s t : State} (hrun : s.InRun) (hframes : s.FramesOut) (ht : exec .run s = .next t) (hdone : t.phase = .done) :
    ∃ r, s.RunFrame r ∧ r.InRun ∧ r.FramesOut ∧ r.packetNo = r.plan.totalPackets ∧ r.emitted.toNat ≤ r.plan.totalBytes.toNat ∧
      t = r.finished (r.plan.totalBytes.toNat - r.emitted.toNat) := by
  rw [exec_run_of_legal (hrun.phase.imp And.left And.left)] at ht
  obtain ⟨r, ⟨hframe, hr, hrframes⟩, ⟨-, hstops, e⟩ | ⟨hnone, e⟩⟩ := runBody_cases (fun r => s.RunFrame r ∧ r.InRun ∧ r.FramesOut)
    (fun r u hr hleft hu => ⟨hr.1.trans hr.2.1.phase_ne_error (stepBody_runFrame hr.2.1.phase_ne_error (by rw [hu]; rfl)),
      hr.2.1.stepBody_done hleft hu, hr.2.2.stepBody_done hr.2.1 hleft hu⟩)
    ⟨State.RunFrame.refl s, hrun, hframes⟩ <;> rw [e] at ht
  · rcases Body.outcome_eq_next.1 ht with hbody | ⟨c, u, -, rfl⟩
    · exact absurd hbody (hstops t)
    · cases hdone
  · rcases finishBody_cases r with ⟨-, e⟩ | ⟨hle, e⟩ <;> rw [e] at ht <;> obtain rfl := Host.Outcome.next.inj ht
    · cases hdone
    · exact ⟨r, hframe, hr, hrframes, hr.packetNo_eq hnone, hle, rfl⟩

/-- The state a run ends in, out of the one it began in, the scratch buffer and OUT apart. -/
theorem State.RunFrame.finished_eq {s r : State} (h : s.RunFrame r) (hr : r.InRun) (hno : r.packetNo = r.plan.totalPackets)
    (hle : r.emitted.toNat ≤ r.plan.totalBytes.toNat) {t : State} (ht : t = r.finished (r.plan.totalBytes.toNat - r.emitted.toNat)) :
    t = { s with
      phase := .done, packetNo := s.plan.totalPackets, emitted := BitVec.ofNat 128 s.plan.totalBytes.toNat,
      ids := idsAt s.plan (s.plan.totalPackets.toNat - 1), iqScratch := t.iqScratch, out := t.out,
      resTrailIfg := BitVec.ofNat 64 (s.plan.totalBytes.toNat - s.plan.totalPackets.toNat * s.plan.frameLen.toNat) } := by
  have heq := (h.finished hr.phase_ne_error (r.plan.totalBytes.toNat - r.emitted.toNat)).eq
  have herr : t.err = s.err := by rw [ht, State.finished_err]; exact h.err.resolve_right hr.phase_ne_error
  have hphase : t.phase = .done := by rw [ht]; rfl
  have hpackets : t.packetNo = s.plan.totalPackets := by rw [ht, State.finished_packetNo, hno, h.plan_eq]
  have hemitted : t.emitted = BitVec.ofNat 128 s.plan.totalBytes.toNat := by rw [ht, State.finished_emitted_eq hle, h.plan_eq]
  have hids : t.ids = idsAt s.plan (s.plan.totalPackets.toNat - 1) := by rw [ht, State.finished_ids, hr.ids_eq, hno, h.plan_eq]
  have htrail : t.resTrailIfg = BitVec.ofNat 64 (s.plan.totalBytes.toNat - s.plan.totalPackets.toNat * s.plan.frameLen.toNat) := by
    rw [ht, State.finished_resTrailIfg, hr.emitted_eq, hno, h.plan_eq]
  rw [← ht, herr, hphase, hpackets, hemitted, hids, htrail] at heq
  exact heq

/-- The host reads every octet of an emitted frame in OUT (R67, R195). -/
theorem State.FramesOut.hostOctet_frame {s : State} (h : s.FramesOut) (hp : s.phase = .running ∨ s.phase = .done)
    (hcount : s.packetNo.toNat * s.plan.frameLen.toNat ≤ s.emitted.toNat) (hcap : s.emitted.toNat ≤ s.params.outCap) {p : Nat}
    (hlt : p < s.packetNo.toNat) :
    ∃ fr, s.packetFrame p fr ∧ fr.length = s.plan.frameLen.toNat ∧
      ∀ j, j < fr.length → s.hostOctet .out (p * s.plan.frameLen.toNat + j) = .ok (fr.getD j 0) := by
  obtain ⟨fr, hfr, hlen, hread⟩ := h p hlt
  have hend : (p + 1) * s.plan.frameLen.toNat ≤ s.packetNo.toNat * s.plan.frameLen.toNat := Nat.mul_le_mul_right _ hlt
  rw [Nat.succ_mul] at hend
  refine ⟨fr, hfr, hlen, fun j hj => State.hostOctet_out_of_read hp (by omega) (by omega) ?_⟩
  rw [hread j hj (by omega), List.getElem?_eq_getElem hj, List.getD_eq_getElem _ _ hj]

/-- Settles O44: the run ends in DONE by `exec_run_of_runSucceeds`, and the state before FINISH holds its frames in OUT. -/
theorem runProducesTheStream : Obligations.RunProducesTheStream := by
  intro s hs hok
  obtain ⟨hphase, hplan, hno, hemitted, hids, htrail, -⟩ := s.readyToRun_iff.1 hs
  have hrun : s.InRun := State.inRun_of_runAtStart hphase hplan (s.runAtStart_iff.2 ⟨hno, hemitted, hids, htrail⟩)
  have hstart : s.FramesOut := hrun.framesOut (State.streamWf_of_phase (by rw [hphase]; decide) (by rw [hphase]; decide))
  obtain ⟨t, ht, hdone, -⟩ := exec_run_of_runSucceeds hs hok
  obtain ⟨r, hframe, hr, hrframes, hrno, hle, hfinished⟩ := exists_inRun_finished hrun hstart ht hdone
  obtain ⟨hframes, htrailing⟩ := (State.streamWf_iff _).1 (hrframes.finished hr hle)
  have hseq := hr.sequencerWf_finished hrno hle
  have htframe := hframe.finished hr.phase_ne_error (r.plan.totalBytes.toNat - r.emitted.toNat)
  have heq := hframe.finished_eq hr hrno hle hfinished
  rw [← hfinished] at hframes htrailing hseq htframe
  obtain ⟨htplan, htno, htemitted, -, htsum⟩ := (State.sequencerWf_done_iff hdone).1 hseq
  have hcap := (planFacts htplan).bytes_le
  rw [htno] at htrailing htsum
  have hnum : t.packetNo.toNat = s.plan.totalPackets.toNat := by rw [htno, htframe.plan_eq]
  have hout := hframes (.inr hdone)
  have hcount : t.packetNo.toNat * t.plan.frameLen.toNat ≤ t.emitted.toNat := by rw [htno]; omega
  refine ⟨t, ht, heq, fun p hlt => ?_, fun x hlo hhi => ?_, fun hfixed p i hlt hi => ?_⟩
  · obtain ⟨fr, hfr, hlen, hread⟩ := hout.hostOctet_frame (.inr hdone) hcount (by omega) (hnum ▸ hlt)
    rw [htframe.plan_eq] at hlen hread
    exact ⟨fr, State.packetFrame_congr htframe.params_eq.symm htframe.cfg_eq.symm htframe.plan_eq.symm htframe.pool_eq.symm hfr, hlen,
      hread⟩
  · rw [← htframe.plan_eq] at hlo hhi
    exact State.hostOctet_out_of_read (.inr hdone) (by omega) (by omega) (htrailing hdone x hlo hhi)
  · have hfits := (planFacts htplan).slice_fits
    have hend : (p + 1) * t.plan.frameLen.toNat ≤ t.packetNo.toNat * t.plan.frameLen.toNat := Nat.mul_le_mul_right _ (hnum ▸ hlt)
    rw [Nat.succ_mul] at hend
    rw [← htframe.plan_eq] at hi ⊢
    rw [hout.hostOctet_payload htplan (.inr hdone) hcount (htframe.cfg_eq ▸ hfixed) (hnum ▸ hlt) hi (by omega),
      State.hostOctet_pool_congr htframe.params_eq htframe.pool_eq]

end Sys2Proof.Machine
end
